-- ==== Sys2Proof/Word.lean ====
section
/-! DEFINITION. The word types of the 32-bit Nios CPU (00_scope.md R3, R4, R8, R9). -/

namespace Sys2Proof

/-- An 8-bit quantity (R4). -/
abbrev Byte := BitVec 8

/-- A 16-bit quantity, and the size of an instruction (R3, R4). -/
abbrev Half := BitVec 16

/-- A 32-bit quantity, the native word and the width of a register (R4). -/
abbrev Word := BitVec 32

/-- A byte address of the 33-bit bus, as the program counter holds it (R3, R8, R48). -/
abbrev Addr := BitVec 33

/-- The index of a visible register, %r0 to %r31 (R32, R114). -/
abbrev RegIdx := BitVec 5

end Sys2Proof
end

