-- ==== Sys2Proof/Syntax.lean ====
section
/-! DEFINITION. The instructions: one constructor per row of spec/opcode_table.json, in the table's order
(30_encoding.md R119). `a`, `b` are the A and B fields, `p` the P field, `imm` the immediate (R111, R114). -/

namespace Sys2Proof

/-- An instruction of the 32-bit Nios CPU with its operand fields. -/
inductive Instr where
  /-- ADD %rA,%rB (R153). -/
  | add (a b : RegIdx)
  /-- ADDI %rA,IMM5 (R154). -/
  | addi (a : RegIdx) (imm : BitVec 5)
  /-- SUB %rA,%rB (R155). -/
  | sub (a b : RegIdx)
  /-- SUBI %rA,IMM5 (R156). -/
  | subi (a : RegIdx) (imm : BitVec 5)
  /-- CMP %rA,%rB (R158). -/
  | cmp (a b : RegIdx)
  /-- CMPI %rA,IMM5 (R159). -/
  | cmpi (a : RegIdx) (imm : BitVec 5)
  /-- LSL %rA,%rB (R177). -/
  | lsl (a b : RegIdx)
  /-- LSLI %rA,IMM5 (R178). -/
  | lsli (a : RegIdx) (imm : BitVec 5)
  /-- LSR %rA,%rB (R179). -/
  | lsr (a b : RegIdx)
  /-- LSRI %rA,IMM5 (R180). -/
  | lsri (a : RegIdx) (imm : BitVec 5)
  /-- ASR %rA,%rB (R181). -/
  | asr (a b : RegIdx)
  /-- ASRI %rA,IMM5 (R182). -/
  | asri (a : RegIdx) (imm : BitVec 5)
  /-- MOV %rA,%rB (R201); `MOV %g0,%g0` is NOP (R135). -/
  | mov (a b : RegIdx)
  /-- MOVI %rA,IMM5 (R202). -/
  | movi (a : RegIdx) (imm : BitVec 5)
  /-- AND %rA,%rB, or AND %rA,IMM5 after PFX: bits 9:5 are `b` (R171, R172). -/
  | and (a : RegIdx) (b : BitVec 5)
  /-- ANDN, fields as AND (R173). -/
  | andn (a : RegIdx) (b : BitVec 5)
  /-- OR, fields as AND (R174). -/
  | or (a : RegIdx) (b : BitVec 5)
  /-- XOR, fields as AND (R175). -/
  | xor (a : RegIdx) (b : BitVec 5)
  /-- BGEN %rA,IMM5 (R185). -/
  | bgen (a : RegIdx) (imm : BitVec 5)
  /-- EXT8d %rA,%rB (R207). -/
  | ext8d (a b : RegIdx)
  /-- SKP0 %rA,IMM5 (R271). -/
  | skp0 (a : RegIdx) (imm : BitVec 5)
  /-- SKP1 %rA,IMM5 (R272). -/
  | skp1 (a : RegIdx) (imm : BitVec 5)
  /-- LD %rA,[%rB] (R232). -/
  | ld (a b : RegIdx)
  /-- ST [%rB],%rA: `a` is the data register, `b` the address register (R233). -/
  | st (a b : RegIdx)
  /-- STS8s [%sp,IMM10],%r0 (R242). -/
  | sts8s (imm : BitVec 10)
  /-- STS16s [%sp,IMM9],%r0 (R243). -/
  | sts16s (imm : BitVec 9)
  /-- EXT16d %rA,%rB (R209). -/
  | ext16d (a b : RegIdx)
  /-- MOVHI %rA,IMM5 (R203). -/
  | movhi (a : RegIdx) (imm : BitVec 5)
  /-- USR0, reserved (R300). -/
  | usr0 (a b : RegIdx)
  /-- EXT8s %rA,IMM2 (R208). -/
  | ext8s (a : RegIdx) (imm : BitVec 2)
  /-- EXT16s %rA,IMM1 (R210). -/
  | ext16s (a : RegIdx) (imm : BitVec 1)
  /-- ST8s [%rA],%r0,IMM2 (R239). -/
  | st8s (a : RegIdx) (imm : BitVec 2)
  /-- ST16s [%rA],%r0,IMM1 (R241). -/
  | st16s (a : RegIdx) (imm : BitVec 1)
  /-- SAVE %sp,-IMM8 (R291). -/
  | save (imm : BitVec 8)
  /-- TRAP IMM6 (R294). -/
  | trap (imm : BitVec 6)
  /-- NOT %rA (R176). -/
  | not (a : RegIdx)
  /-- NEG %rA (R160). -/
  | neg (a : RegIdx)
  /-- ABS %rA (R157). -/
  | abs (a : RegIdx)
  /-- SEXT8 %rA (R205). -/
  | sext8 (a : RegIdx)
  /-- SEXT16 %rA (R206). -/
  | sext16 (a : RegIdx)
  /-- RLC %rA (R183). -/
  | rlc (a : RegIdx)
  /-- RRC %rA (R184). -/
  | rrc (a : RegIdx)
  /-- SWAP %rA (R204). -/
  | swap (a : RegIdx)
  /-- USR1, reserved (R301). -/
  | usr1 (a : RegIdx)
  /-- USR2, reserved (R302). -/
  | usr2 (a : RegIdx)
  /-- USR3, reserved (R303). -/
  | usr3 (a : RegIdx)
  /-- USR4, reserved (R304). -/
  | usr4 (a : RegIdx)
  /-- RESTORE (R293). -/
  | restore
  /-- TRET %rA (R296). -/
  | tret (a : RegIdx)
  /-- ST8d [%rA],%r0 (R238). -/
  | st8d (a : RegIdx)
  /-- ST16d [%rA],%r0 (R240). -/
  | st16d (a : RegIdx)
  /-- FILL8 %r0,%rA (R211). -/
  | fill8 (a : RegIdx)
  /-- FILL16 %r0,%rA (R212). -/
  | fill16 (a : RegIdx)
  /-- MSTEP %rA (R161). -/
  | mstep (a : RegIdx)
  /-- MUL %rA (R162). -/
  | mul (a : RegIdx)
  /-- SKPRz %rA (R273). -/
  | skprz (a : RegIdx)
  /-- SKPS cc (R275). -/
  | skps (cond : BitVec 4)
  /-- WRCTL %rA (R298). -/
  | wrctl (a : RegIdx)
  /-- RDCTL %rA (R297). -/
  | rdctl (a : RegIdx)
  /-- SKPRnz %rA (R274). -/
  | skprnz (a : RegIdx)
  /-- JMP %rA (R265); LRET and RET are JMP %o7 and JMP %i7 (R267). -/
  | jmp (a : RegIdx)
  /-- CALL %rA (R266). -/
  | call (a : RegIdx)
  /-- BR addr (R263). -/
  | br (imm : BitVec 11)
  /-- BSR addr (R264). -/
  | bsr (imm : BitVec 11)
  /-- PFX IMM11 (R220). -/
  | pfx (imm : BitVec 11)
  /-- STP [%rP,IMM5],%rA (R235). -/
  | stp (p : BitVec 2) (imm : BitVec 5) (a : RegIdx)
  /-- LDP %rA,[%rP,IMM5] (R234). -/
  | ldp (p : BitVec 2) (imm : BitVec 5) (a : RegIdx)
  /-- STS [%sp,IMM8],%rA (R237). -/
  | sts (imm : BitVec 8) (a : RegIdx)
  /-- LDS %rA,[%sp,IMM8] (R236). -/
  | lds (imm : BitVec 8) (a : RegIdx)
  deriving DecidableEq, Repr

end Sys2Proof
end

