-- ==== Sys2Proof/Decode.lean ====
section
/-! DEFINITION. The decoder (30_encoding.md R118, R119), total on any bytes and rejecting by name, and
after it the encoder, written from the same formats (R111). -/

namespace Sys2Proof

/-- Why some bytes are no instruction. -/
inductive DecodeError where
  /-- Fewer than two bytes: every instruction is exactly 16 bits (R110). -/
  | truncated
  /-- An unassigned encoding of the opcode map (R122, R123). -/
  | unassigned
  /-- A one in a bit its format fixes at zero (R124). -/
  | nonzeroFixedBits
  deriving DecidableEq, Repr

/-- The A field, bits 4:0 (R111). -/
def fieldA (w : Half) : RegIdx := w.extractLsb' 0 5

/-- The B field, or IMM5, bits 9:5 (R111). -/
def fieldB (w : Half) : BitVec 5 := w.extractLsb' 5 5

/-- IMM11, bits 10:0 (R111). -/
def fieldImm11 (w : Half) : BitVec 11 := w.extractLsb' 0 11

/-- IMM8 of format Ri8, bits 12:5 (R111). -/
def fieldImm8 (w : Half) : BitVec 8 := w.extractLsb' 5 8

/-- P, bits 11:10 (R111). -/
def fieldP (w : Half) : BitVec 2 := w.extractLsb' 10 2

/-- Accept `i` where the format's zero bits are zero, refuse the word otherwise (R124). -/
def whenZero (zero : Bool) (i : Instr) : Except DecodeError Instr :=
  if zero then .ok i else .error .nonzeroFixedBits

/-- The words with bits 15:10 = 011101, by op3u in bits 9:7 (R118). -/
def decodeU (w : Half) : Except DecodeError Instr :=
  match w.extractLsb' 7 3 with
  | 0b000#3 => .ok (.ext8s (fieldA w) (w.extractLsb' 5 2))
  | 0b001#3 => whenZero (!w[5]) (.ext16s (fieldA w) (w.extractLsb' 6 1))
  | 0b100#3 => .ok (.st8s (fieldA w) (w.extractLsb' 5 2))
  | 0b101#3 => whenZero (!w[5]) (.st16s (fieldA w) (w.extractLsb' 6 1))
  | _ => .error .unassigned

/-- The words with bits 15:10 = 011110, by op2v in bits 9:8 (R118). -/
def decodeV (w : Half) : Except DecodeError Instr :=
  match w.extractLsb' 8 2 with
  | 0b00#2 => .ok (.save (w.extractLsb' 0 8))
  | 0b01#2 => whenZero (w.extractLsb' 6 2 == 0#2) (.trap (w.extractLsb' 0 6))
  | _ => .error .unassigned

/-- The words with bits 15:10 = 011111, by op5w in bits 9:5 (R118, R119). -/
def decodeW (w : Half) : Except DecodeError Instr :=
  match w.extractLsb' 5 5 with
  | 0b00000#5 => .ok (.not (fieldA w))
  | 0b00001#5 => .ok (.neg (fieldA w))
  | 0b00010#5 => .ok (.abs (fieldA w))
  | 0b00011#5 => .ok (.sext8 (fieldA w))
  | 0b00100#5 => .ok (.sext16 (fieldA w))
  | 0b00101#5 => .ok (.rlc (fieldA w))
  | 0b00110#5 => .ok (.rrc (fieldA w))
  | 0b01000#5 => .ok (.swap (fieldA w))
  | 0b01001#5 => .ok (.usr1 (fieldA w))
  | 0b01010#5 => .ok (.usr2 (fieldA w))
  | 0b01011#5 => .ok (.usr3 (fieldA w))
  | 0b01100#5 => .ok (.usr4 (fieldA w))
  | 0b01101#5 => whenZero (fieldA w == 0#5) .restore
  | 0b01110#5 => .ok (.tret (fieldA w))
  | 0b10000#5 => .ok (.st8d (fieldA w))
  | 0b10001#5 => .ok (.st16d (fieldA w))
  | 0b10010#5 => .ok (.fill8 (fieldA w))
  | 0b10011#5 => .ok (.fill16 (fieldA w))
  | 0b10100#5 => .ok (.mstep (fieldA w))
  | 0b10101#5 => .ok (.mul (fieldA w))
  | 0b10110#5 => .ok (.skprz (fieldA w))
  | 0b10111#5 => whenZero (!w[4]) (.skps (w.extractLsb' 0 4))
  | 0b11000#5 => .ok (.wrctl (fieldA w))
  | 0b11001#5 => .ok (.rdctl (fieldA w))
  | 0b11010#5 => .ok (.skprnz (fieldA w))
  | 0b11110#5 => .ok (.jmp (fieldA w))
  | 0b11111#5 => .ok (.call (fieldA w))
  | _ => .error .unassigned

/-- The words with bit 15 = 0, by bits 14:10 (R118, R119). -/
def decodeLow (w : Half) : Except DecodeError Instr :=
  match w.extractLsb' 10 5 with
  | 0b00000#5 => .ok (.add (fieldA w) (fieldB w))
  | 0b00001#5 => .ok (.addi (fieldA w) (fieldB w))
  | 0b00010#5 => .ok (.sub (fieldA w) (fieldB w))
  | 0b00011#5 => .ok (.subi (fieldA w) (fieldB w))
  | 0b00100#5 => .ok (.cmp (fieldA w) (fieldB w))
  | 0b00101#5 => .ok (.cmpi (fieldA w) (fieldB w))
  | 0b00110#5 => .ok (.lsl (fieldA w) (fieldB w))
  | 0b00111#5 => .ok (.lsli (fieldA w) (fieldB w))
  | 0b01000#5 => .ok (.lsr (fieldA w) (fieldB w))
  | 0b01001#5 => .ok (.lsri (fieldA w) (fieldB w))
  | 0b01010#5 => .ok (.asr (fieldA w) (fieldB w))
  | 0b01011#5 => .ok (.asri (fieldA w) (fieldB w))
  | 0b01100#5 => .ok (.mov (fieldA w) (fieldB w))
  | 0b01101#5 => .ok (.movi (fieldA w) (fieldB w))
  | 0b01110#5 => .ok (.and (fieldA w) (fieldB w))
  | 0b01111#5 => .ok (.andn (fieldA w) (fieldB w))
  | 0b10000#5 => .ok (.or (fieldA w) (fieldB w))
  | 0b10001#5 => .ok (.xor (fieldA w) (fieldB w))
  | 0b10010#5 => .ok (.bgen (fieldA w) (fieldB w))
  | 0b10011#5 => .ok (.ext8d (fieldA w) (fieldB w))
  | 0b10100#5 => .ok (.skp0 (fieldA w) (fieldB w))
  | 0b10101#5 => .ok (.skp1 (fieldA w) (fieldB w))
  | 0b10110#5 => .ok (.ld (fieldA w) (fieldB w))
  | 0b10111#5 => .ok (.st (fieldA w) (fieldB w))
  | 0b11000#5 => .ok (.sts8s (w.extractLsb' 0 10))
  | 0b11001#5 => whenZero (!w[0]) (.sts16s (w.extractLsb' 1 9))
  | 0b11010#5 => .ok (.ext16d (fieldA w) (fieldB w))
  | 0b11011#5 => .ok (.movhi (fieldA w) (fieldB w))
  | 0b11100#5 => .ok (.usr0 (fieldA w) (fieldB w))
  | 0b11101#5 => decodeU w
  | 0b11110#5 => decodeV w
  | _ => decodeW w

/-- Decode one instruction word (R118). -/
def decodeWord (w : Half) : Except DecodeError Instr :=
  match w.extractLsb' 13 3 with
  | 0b111#3 => .ok (.lds (fieldImm8 w) (fieldA w))
  | 0b110#3 => .ok (.sts (fieldImm8 w) (fieldA w))
  | 0b101#3 =>
    if w[12] then .ok (.ldp (fieldP w) (fieldB w) (fieldA w))
    else .ok (.stp (fieldP w) (fieldB w) (fieldA w))
  | 0b100#3 =>
    match w.extractLsb' 11 2 with
    | 0b00#2 => .ok (.br (fieldImm11 w))
    | 0b01#2 => .ok (.bsr (fieldImm11 w))
    | 0b10#2 => .error .unassigned
    | _ => .ok (.pfx (fieldImm11 w))
  | _ => decodeLow w

/-- The instruction word held by two bytes, the first at the lower address: little-endian (20_memory.md
R81, R86). -/
def wordOfBytes (lo hi : Byte) : Half := hi ++ lo

/-- Decode the instruction at the front of a run of bytes, and give back the rest. -/
def decodeBytes : List Byte → Except DecodeError (Instr × List Byte)
  | lo :: hi :: rest => (decodeWord (wordOfBytes lo hi)).map fun i => (i, rest)
  | _ => .error .truncated

/-- Is this word a PFX, bits 15:11 = 10011 (44_control_flow.md R270)? -/
def isPfxWord (w : Half) : Bool := w.extractLsb' 11 5 == 0b10011#5

/-- The word of NOP, `MOV %g0,%g0` (R125, R135). -/
def nopWord : Half := 0x3000#16

/-- Format RR (R111). -/
def formatRR (op : BitVec 6) (b : BitVec 5) (a : RegIdx) : Half := op ++ b ++ a

/-- Format Rw (R111). -/
def formatRw (op5w : BitVec 5) (a : RegIdx) : Half := 0b011111#6 ++ op5w ++ a

/-- The word of an instruction, from its format and its opcode bits (R111, R119). -/
def encode : Instr → Half
  | .add a b => formatRR 0b000000#6 b a
  | .addi a imm => formatRR 0b000001#6 imm a
  | .sub a b => formatRR 0b000010#6 b a
  | .subi a imm => formatRR 0b000011#6 imm a
  | .cmp a b => formatRR 0b000100#6 b a
  | .cmpi a imm => formatRR 0b000101#6 imm a
  | .lsl a b => formatRR 0b000110#6 b a
  | .lsli a imm => formatRR 0b000111#6 imm a
  | .lsr a b => formatRR 0b001000#6 b a
  | .lsri a imm => formatRR 0b001001#6 imm a
  | .asr a b => formatRR 0b001010#6 b a
  | .asri a imm => formatRR 0b001011#6 imm a
  | .mov a b => formatRR 0b001100#6 b a
  | .movi a imm => formatRR 0b001101#6 imm a
  | .and a b => formatRR 0b001110#6 b a
  | .andn a b => formatRR 0b001111#6 b a
  | .or a b => formatRR 0b010000#6 b a
  | .xor a b => formatRR 0b010001#6 b a
  | .bgen a imm => formatRR 0b010010#6 imm a
  | .ext8d a b => formatRR 0b010011#6 b a
  | .skp0 a imm => formatRR 0b010100#6 imm a
  | .skp1 a imm => formatRR 0b010101#6 imm a
  | .ld a b => formatRR 0b010110#6 b a
  | .st a b => formatRR 0b010111#6 b a
  | .sts8s imm => 0b011000#6 ++ imm
  | .sts16s imm => 0b011001#6 ++ imm ++ 0#1
  | .ext16d a b => formatRR 0b011010#6 b a
  | .movhi a imm => formatRR 0b011011#6 imm a
  | .usr0 a b => formatRR 0b011100#6 b a
  | .ext8s a imm => 0b011101000#9 ++ imm ++ a
  | .ext16s a imm => 0b011101001#9 ++ imm ++ 0#1 ++ a
  | .st8s a imm => 0b011101100#9 ++ imm ++ a
  | .st16s a imm => 0b011101101#9 ++ imm ++ 0#1 ++ a
  | .save imm => 0b01111000#8 ++ imm
  | .trap imm => 0b0111100100#10 ++ imm
  | .not a => formatRw 0b00000#5 a
  | .neg a => formatRw 0b00001#5 a
  | .abs a => formatRw 0b00010#5 a
  | .sext8 a => formatRw 0b00011#5 a
  | .sext16 a => formatRw 0b00100#5 a
  | .rlc a => formatRw 0b00101#5 a
  | .rrc a => formatRw 0b00110#5 a
  | .swap a => formatRw 0b01000#5 a
  | .usr1 a => formatRw 0b01001#5 a
  | .usr2 a => formatRw 0b01010#5 a
  | .usr3 a => formatRw 0b01011#5 a
  | .usr4 a => formatRw 0b01100#5 a
  | .restore => formatRw 0b01101#5 0#5
  | .tret a => formatRw 0b01110#5 a
  | .st8d a => formatRw 0b10000#5 a
  | .st16d a => formatRw 0b10001#5 a
  | .fill8 a => formatRw 0b10010#5 a
  | .fill16 a => formatRw 0b10011#5 a
  | .mstep a => formatRw 0b10100#5 a
  | .mul a => formatRw 0b10101#5 a
  | .skprz a => formatRw 0b10110#5 a
  | .skps cond => 0b011111101110#12 ++ cond
  | .wrctl a => formatRw 0b11000#5 a
  | .rdctl a => formatRw 0b11001#5 a
  | .skprnz a => formatRw 0b11010#5 a
  | .jmp a => formatRw 0b11110#5 a
  | .call a => formatRw 0b11111#5 a
  | .br imm => 0b10000#5 ++ imm
  | .bsr imm => 0b10001#5 ++ imm
  | .pfx imm => 0b10011#5 ++ imm
  | .stp p imm a => 0b1010#4 ++ p ++ imm ++ a
  | .ldp p imm a => 0b1011#4 ++ p ++ imm ++ a
  | .sts imm a => 0b110#3 ++ imm ++ a
  | .lds imm a => 0b111#3 ++ imm ++ a

/-- The two bytes of an instruction as memory holds them, the byte at the lower address first (R81). -/
def encodeBytes (i : Instr) : List Byte := [(encode i).extractLsb' 0 8, (encode i).extractLsb' 8 8]

/-- The host's question: the instruction the decoder reads from an instruction whose bits are `w`. Every
instruction is one 16-bit word, so bits from 16 up do not exist, whatever `nbits` says. -/
def decodeTableWord (_nbits w : Nat) : Option Instr :=
  match decodeBytes [BitVec.ofNat 8 w, BitVec.ofNat 8 (w / 256)] with
  | .ok (i, _) => some i
  | .error _ => none

end Sys2Proof
end

