-- ==== Sys2Proof/Config.lean ====
section
/-! DEFINITION. What an implementation fixes: the parameters of 00_scope.md R7, and the free values the
spec leaves open (93_implementation_defined.md U1, U12). A configuration is plain data that State carries
and no step changes, so that a statement about every state is about every configuration (log entry 1). -/

namespace Sys2Proof

/-- NREG, the size of the register file: "either 128, 256, or 512 registers" (R7, R31). -/
inductive FileSize where
  | regs128
  | regs256
  | regs512
  deriving DecidableEq, Repr

/-- NREG as a number. -/
def FileSize.nreg : FileSize → Nat
  | .regs128 => 128
  | .regs256 => 256
  | .regs512 => 512

/-- HI_MAX, the highest valid window pointer: `NREG/16 - 2`, that is 6, 14 or 30 (R7, R38). -/
def FileSize.hiMax (f : FileSize) : BitVec 5 := BitVec.ofNat 5 (f.nreg / 16 - 2)

/-- A run of byte addresses backed by memory (20_memory.md R92, R93): `base` to `base + size - 1`. -/
structure Region where
  base : Nat
  size : Nat
  deriving DecidableEq, Repr

/-- The parameters of the CPU (R7; 92_eei_decisions.md, "Parameters left open"). -/
structure Config where
  /-- NREG. -/
  fileSize : FileSize
  /-- VECBASE: byte address of entry 0 of the exception vector table (R322). -/
  vecBase : Addr
  /-- WVALID_WRITABLE: whether WRCTL can change WVALID (R60, R298). -/
  wvalidWritable : Bool
  /-- RESET_PC: the program counter after reset (R372). -/
  resetPc : Addr
  /-- The memory map: which byte addresses are backed (R93, D19). -/
  map : List Region
  deriving DecidableEq, Repr

/-- The constraints the spec puts on the parameters: VECBASE is a multiple of 4 with its table below 2^32
(R323, D27), and RESET_PC is even (D1). -/
def Config.wf (c : Config) : Bool :=
  c.vecBase.toNat % 4 == 0 && decide (c.vecBase.toNat + 255 < 2 ^ 32) && c.resetPc.toNat % 2 == 0

/-- FREE VALUE (log entry 9): the word a RDCTL delivers where the spec says `any value` (R62, R63, R65; U1,
U12). It has no body: nothing can be proved of it. `State.freeCount` selects a fresh one each time. -/
opaque Config.freeWord : Nat → Word

end Sys2Proof
end

