-- ==== Sys2Proof/Machine/Memory.lean ====
section
/-! DEFINITION. Memory: an array of bytes indexed by byte address, 0 to 2^33 - 1 (20_memory.md R80), held
as a list of (address, byte) pairs in one canonical form: addresses strictly rising, and no entry equal to
what an unlisted address reads as. Which addresses are backed is the configuration's memory map (R93). -/

namespace Sys2Proof.Machine

/-- Memory as sparse data. -/
abbrev Memory := List Host.Cell

/-- What a byte that nothing has written reads as (DESIGN CHOICE, log entry 5; the spec gives none, U11):
every half-word is a NOP, 0x3000, so an even address reads 0x00 and an odd one 0x30. -/
def unlistedByte (addr : Nat) : Byte := if addr % 2 = 0 then 0x00#8 else 0x30#8

/-- The byte at an address. -/
def Memory.read : Memory → Nat → Byte
  | [], addr => unlistedByte addr
  | (a, v) :: rest, addr => if addr = a then v else Memory.read rest addr

/-- Put one entry in front of `rest`, unless it is what the address reads as anyway. -/
def Memory.push (addr : Nat) (v : Byte) (rest : Memory) : Memory :=
  if v = unlistedByte addr then rest else (addr, v) :: rest

/-- Write one byte, keeping the canonical form. -/
def Memory.write : Memory → Nat → Byte → Memory
  | [], addr, v => Memory.push addr v []
  | (a, w) :: rest, addr, v =>
    if addr < a then Memory.push addr v ((a, w) :: rest)
    else if addr = a then Memory.push addr v rest
    else (a, w) :: Memory.write rest addr v

/-- Write a run of bytes, the first at the lowest address (R85: `M[addr + j] <- v[8j+7 : 8j]`). -/
def Memory.writeBytes : Memory → Nat → List Byte → Memory
  | m, _, [] => m
  | m, addr, v :: vs => Memory.writeBytes (Memory.write m addr v) (addr + 1) vs

/-- Every entry lies at or above `low`, addresses rise strictly, and no entry is what its address reads as
unlisted. -/
def Memory.wfFrom : Nat → Memory → Bool
  | _, [] => true
  | low, (a, v) :: rest => decide (low ≤ a) && (v != unlistedByte a) && Memory.wfFrom (a + 1) rest

/-- The canonical form. -/
def Memory.wf (m : Memory) : Bool := Memory.wfFrom 0 m

/-- The little-endian half-word at an address (R81, R84). -/
def Memory.readHalf (m : Memory) (addr : Nat) : Half := Memory.read m (addr + 1) ++ Memory.read m addr

/-- The little-endian word at an address (R81, R84). -/
def Memory.readWord (m : Memory) (addr : Nat) : Word :=
  Memory.read m (addr + 3) ++ Memory.read m (addr + 2) ++ Memory.read m (addr + 1) ++ Memory.read m addr

/-- Is this byte address one of the region's? -/
def regionHolds (r : Region) (addr : Nat) : Bool := decide (r.base ≤ addr) && decide (addr < r.base + r.size)

/-- Is this byte address backed by memory (R93, D19)? Addresses end at 2^33 - 1 (R80). -/
def byteBacked (c : Config) (addr : Nat) : Bool := decide (addr < 2 ^ 33) && c.map.any fun r => regionHolds r addr

/-- Are the `n` bytes from `addr` on all backed? -/
def bytesBacked (c : Config) (addr : Nat) : Nat → Bool
  | 0 => true
  | n + 1 => byteBacked c (addr + n) && bytesBacked c addr n

/-- A set of byte addresses as a rising list: add one. -/
def insertAddr (addr : Nat) : List Nat → List Nat
  | [] => [addr]
  | a :: rest => if addr < a then addr :: a :: rest else if addr = a then a :: rest else a :: insertAddr addr rest

/-- Add the `n` addresses from `addr` on. -/
def insertAddrs (addr : Nat) : Nat → List Nat → List Nat
  | 0, l => l
  | n + 1, l => insertAddrs addr n (insertAddr (addr + n) l)

end Sys2Proof.Machine
end

