-- ==== Sys2Proof/Machine/ResetValues.lean ====
section
/-! DEFINITION. The values this model names where the spec states none for reset (DESIGN CHOICE, log
entries 1 and 2). No statement of the model rests on them: the statements about reset are made of every
reset state the spec allows (Sys2Proof/Safety.lean). -/

namespace Sys2Proof.Machine

/-- The word in every general register after reset. The spec: "any value ... never as zero" (10_state.md
R42), so it is not zero (log entry 2). -/
def resetRegister : Word := 0xA5A5A5A5#32

/-- The configuration `State.reset` stands for: the one the spec's test vectors use (95_test_vectors.md
section 1 and section 4: NREG = 256, VECBASE = 0x100, WVALID writable, programs at 0x1000, every address
backed; log entry 1). -/
def resetConfig : Config :=
  { fileSize := .regs256, vecBase := 0x100#33, wvalidWritable := true, resetPc := 0x1000#33,
    map := [{ base := 0, size := 2 ^ 33 }] }

end Sys2Proof.Machine
end

