-- ==== Sys2Proof/Machine/State.lean ====
section
/-! DEFINITION. The architectural state of the CPU (10_state.md R30) as plain data, the reasons a step can
stop, and the state after reset (R76; 70_reset_and_hazards.md R371). -/

namespace Sys2Proof.Machine

/-- The condition code flags, STATUS[3:0] (R57). -/
structure Flags where
  n : Bool
  v : Bool
  z : Bool
  c : Bool
  deriving DecidableEq, Repr

/-- STATUS by its fields: IE [15], IPRI [14:9], CWP [8:4], N V Z C [3:0] (R58). All 16 bits belong to a
field; `Status.toWord` and `Status.ofWord` (Machine/Flags.lean) are the register as 16 bits. -/
structure Status where
  /-- STATUS[15], interrupt enable (R54). -/
  ie : Bool
  /-- STATUS[14:9], the current running interrupt priority (R55). -/
  ipri : BitVec 6
  /-- STATUS[8:4], the current window pointer (R56). -/
  cwp : BitVec 5
  /-- STATUS[3:0] (R57). -/
  flags : Flags
  deriving DecidableEq, Repr

/-- WVALID by its fields: HI_LIMIT [9:5], LO_LIMIT [4:0] (R60). -/
structure Wvalid where
  hi : BitVec 5
  lo : BitVec 5
  deriving DecidableEq, Repr

/-- What the environment drives in one step: `irq` and `irq_number` (60_exceptions.md R331, R332). -/
structure IrqInput where
  irq : Bool
  number : BitVec 6
  deriving DecidableEq, Repr

structure State where
  /-- The parameters of the CPU (00_scope.md R7); no step changes them (log entry 1). -/
  cfg : Config
  /-- The general-purpose register file `R[0 .. NREG-1]` (R30 item 1, R31, R36). -/
  regs : List Word
  /-- The program counter: the byte address of the current instruction (R48). -/
  pc : Addr
  /-- The K register (R45). -/
  k : BitVec 11
  /-- STATUS, %ctl0 (R54 to R58). -/
  status : Status
  /-- ISTATUS, %ctl1, with the layout of STATUS (R59). -/
  istatus : Status
  /-- WVALID, %ctl2 (R60, R61). -/
  wvalid : Wvalid
  /-- PFXF: the previous instruction was PFX (R47). -/
  pfxf : Bool
  /-- DS: the pending delayed-branch target (R50). -/
  ds : Option Addr
  /-- Memory (R30 item 9; 20_memory.md R80). -/
  mem : Memory
  /-- The bytes stored to since the last control transfer, a rising list (20_memory.md R98, D17; log entry 10). -/
  stored : List Nat
  /-- The inputs of the steps to come, the first for the next step; past the end `irq` is 0 (R332, D25; log entry 8). -/
  irqs : List IrqInput
  /-- The MODEL's own: how many free values were drawn (log entry 9). -/
  freeCount : Nat
  deriving DecidableEq, Repr

/-- Why the machine stops with a fault: never. "This CPU has no exception for any of the cases below, so
`fault` is never the treatment" (93_implementation_defined.md): its exceptions are next states, and every case
without a meaning is a refusal. No instruction raises a fault; safe. -/
inductive Fault where
  deriving DecidableEq, Repr

/-- Why an instruction or a step has no meaning: the cases the spec marks `refuse`
(93_implementation_defined.md). Every one is safe: the model stops where the spec gives no behaviour. -/
inductive Refusal where
  /-- Raised by exec for an instruction that has no meaning yet; safe. -/
  | notModelled (mnemonic : String)
  /-- Raised by the step for a word the opcode map does not assign (30_encoding.md R122, R123; U3); safe. -/
  | unassignedEncoding (word : Half)
  /-- Raised by the step for a word with a one in a fixed-zero bit (R124; U3); safe. -/
  | nonzeroFixedBits (word : Half)
  /-- Raised by the meanings of USR0 to USR4: "Reserved for future use" (R121, R300 to R304; U3); safe. -/
  | reservedOpcode (mnemonic : String)
  /-- Raised by the twelve instructions barred from a delay slot (44_control_flow.md R262; U5); safe. -/
  | barredInDelaySlot
  /-- Raised by PFX when the previous instruction was PFX: "not defined" (42_move_extract.md R224; U4); safe. -/
  | consecutivePrefix
  /-- Raised by SKPS with condition 0xE or 0xF (44_control_flow.md R275; U6); safe. -/
  | unassignedCondition
  /-- Raised by WRCTL to STATUS that no NOP follows (45_system.md R299; U7); safe. -/
  | statusWriteWithoutNop
  /-- Raised by RDCTL and WRCTL with an index 3 to 7 or 10 to 2047 (10_state.md R64; U2); safe. -/
  | undefinedControlRegister (index : Nat)
  /-- Raised by a read or write of a windowed register that lies outside the file (10_state.md R38; U8,
  U10); `index` is the physical index; safe. -/
  | outsideRegisterFile (index : Nat)
  /-- Raised by an exception entry whose new window `cwp` lies outside the file, but for the entry at CWP = 0
  (60_exceptions.md R340; U10); safe. -/
  | handlerWindowOutsideFile (cwp : BitVec 5)
  /-- Raised by the memory operations of Machine/Ops.lean for a fetch, load, store, vector fetch or look-ahead
  that touches a byte outside the memory map (20_memory.md R93, D19; U9); `addr` is the first byte of the
  access; safe: nothing is claimed of what the platform does there. -/
  | unbackedAddress (addr : Nat)
  /-- Raised by a fetch from a byte stored to since the last control transfer (20_memory.md R98; U13); safe. -/
  | staleFetch (addr : Nat)
  deriving DecidableEq, Repr

/-- STATUS after reset: IE = 0, IPRI = 63, CWP = HI_MAX (R76), with the flags given. -/
def resetStatus (f : FileSize) (flags : Flags) : Status :=
  { ie := false, ipri := 63#6, cwp := f.hiMax, flags := flags }

/-- The machine right after reset, for a configuration and for the contents of the registers and the flags
the spec leaves unspecified (R76). K, PFXF and DS are the spec's own choice (D2; log entry 4). -/
def State.resetWith (c : Config) (regs : List Word) (flags : Flags) : State :=
  { cfg := c, regs := regs, pc := c.resetPc, k := 0#11, status := resetStatus c.fileSize flags,
    istatus := { ie := false, ipri := 0#6, cwp := 0#5, flags := { n := false, v := false, z := false, c := false } },
    wvalid := { hi := c.fileSize.hiMax, lo := 1#5 },
    pfxf := false, ds := none, mem := [], stored := [], irqs := [], freeCount := 0 }

/-- The machine right after reset, every open value at the one the log names (log entries 1 to 5, 8 to 10). -/
def State.reset : State :=
  State.resetWith resetConfig (List.replicate resetConfig.fileSize.nreg resetRegister)
    { n := false, v := false, z := false, c := false }

end Sys2Proof.Machine
end

