-- ==== Sys2Proof/Machine/Flags.lean ====
section
/-! DEFINITION. STATUS, ISTATUS and WVALID as register bits (10_state.md R58, R60), and every flag
computation the spec gives (40_arithmetic.md R151, R152; 41_logic_shift.md R171; 44_control_flow.md R275). -/

namespace Sys2Proof.Machine

/-- STATUS as its 16 bits (R58). -/
def Status.toWord (s : Status) : Half :=
  BitVec.ofBool s.ie ++ s.ipri ++ s.cwp ++ BitVec.ofBool s.flags.n ++ BitVec.ofBool s.flags.v ++
    BitVec.ofBool s.flags.z ++ BitVec.ofBool s.flags.c

/-- The fields of a 16-bit STATUS or ISTATUS value (R58, R298). -/
def Status.ofWord (w : Half) : Status :=
  { ie := w[15], ipri := w.extractLsb' 9 6, cwp := w.extractLsb' 4 5,
    flags := { n := w[3], v := w[2], z := w[1], c := w[0] } }

/-- WVALID as its 10 bits (R60). -/
def Wvalid.toBits (w : Wvalid) : BitVec 10 := w.hi ++ w.lo

/-- The fields of a 10-bit WVALID value (R60, R298). -/
def Wvalid.ofBits (b : BitVec 10) : Wvalid := { hi := b.extractLsb' 5 5, lo := b.extractLsb' 0 5 }

/-- `AddFlags(a, b)` of R151: C is the carry out of bit 31, V the signed overflow. -/
def addFlags (a b : Word) : Flags :=
  let r := a + b
  { n := r.msb, v := (a.msb == b.msb) && (r.msb != a.msb), z := r == 0#32,
    c := decide (2 ^ 32 ≤ a.toNat + b.toNat) }

/-- `SubFlags(a, b)` of R152: C is the borrow, not its inverse. -/
def subFlags (a b : Word) : Flags :=
  let r := a - b
  { n := r.msb, v := (a.msb != b.msb) && (r.msb != a.msb), z := r == 0#32, c := decide (a.toNat < b.toNat) }

/-- The flags of AND, ANDN, OR and XOR: N and Z from the result, V and C unchanged (R171). -/
def logicFlags (old : Flags) (r : Word) : Flags := { old with n := r.msb, z := r == 0#32 }

/-- The SKPS condition table (R275); `none` for 0xE and 0xF, which name no condition. -/
def conditionHolds (cond : BitVec 4) (f : Flags) : Option Bool :=
  match cond with
  | 0x0#4 => some f.c
  | 0x1#4 => some (!f.c)
  | 0x2#4 => some f.z
  | 0x3#4 => some (!f.z)
  | 0x4#4 => some f.n
  | 0x5#4 => some (!f.n)
  | 0x6#4 => some (!(f.n ^^ f.v))
  | 0x7#4 => some (f.n ^^ f.v)
  | 0x8#4 => some (f.z || (f.n ^^ f.v))
  | 0x9#4 => some (!(f.z || (f.n ^^ f.v)))
  | 0xA#4 => some f.v
  | 0xB#4 => some (!f.v)
  | 0xC#4 => some (f.c || f.z)
  | 0xD#4 => some (!(f.c || f.z))
  | _ => none

end Sys2Proof.Machine
end

