-- ==== Sys2Proof/Machine/Operands.lean ====
section
/-! DEFINITION. Every operand form: immediates extended by K (30_encoding.md R127 to R131), byte and
half-word selection (00_scope.md R10), address formation (20_memory.md R82, R91) and code addresses. -/

namespace Sys2Proof.Machine

/-- `K : IMM5`, 16 bits (R127, R131). -/
def kImm5 (k : BitVec 11) (imm : BitVec 5) : Half := k ++ imm

/-- `imm16 = zext_32(K : IMM5)` (R127). -/
def imm16 (k : BitVec 11) (imm : BitVec 5) : Word := (kImm5 k imm).setWidth 32

/-- `sK4 = sext_32(K) * 4` modulo 2^32 (R128). -/
def sK4 (k : BitVec 11) : Word := k.signExtend 32 * 4#32

/-- `sKI4 = sext_32(K : IMM5) * 4` modulo 2^32 (R129). -/
def sKI4 (k : BitVec 11) (imm : BitVec 5) : Word := (kImm5 k imm).signExtend 32 * 4#32

/-- The offset of LDP and STP: `if PFXF == 1 then sKI4 else IMM5 * 4` (43_load_store.md R234, R235). -/
def pointerOffset (pfxf : Bool) (k : BitVec 11) (imm : BitVec 5) : Word :=
  if pfxf then sKI4 k imm else imm.setWidth 32 * 4#32

/-- The register index of a base pointer, `16 + P` (30_encoding.md R114). -/
def pointerReg (p : BitVec 2) : RegIdx := 16#5 + p.setWidth 5

/-- `align32(X) = X & 0xFFFFFFFC` (R10, R83). -/
def align32 (x : Word) : Word := x &&& 0xFFFFFFFC#32

/-- Byte n of X: `X[8n+7 : 8n]` (R10). -/
def byteOf (x : Word) (n : BitVec 2) : Byte := x.extractLsb' (8 * n.toNat) 8

/-- Half-word n of X: `X[16n+15 : 16n]` (R10). -/
def halfOf (x : Word) (n : BitVec 1) : Half := x.extractLsb' (16 * n.toNat) 16

/-- The byte lane of an address, its low two bits (20_memory.md R90). -/
def byteLane (x : Word) : BitVec 2 := x.extractLsb' 0 2

/-- The half-word lane of an address, its bit 1 (20_memory.md R90). -/
def halfLane (x : Word) : BitVec 1 := x.extractLsb' 1 1

/-- The bytes of a half-word as memory holds them, lowest address first (R81, R85). -/
def halfBytes (v : Half) : List Byte := [v.extractLsb' 0 8, v.extractLsb' 8 8]

/-- The bytes of a word as memory holds them, lowest address first (R81, R85). -/
def wordBytes (v : Word) : List Byte :=
  [v.extractLsb' 0 8, v.extractLsb' 8 8, v.extractLsb' 16 8, v.extractLsb' 24 8]

/-- A code address held in a register, shifted left by one into a 33-bit byte address (44_control_flow.md
R265; 60_exceptions.md R322). -/
def codeAddr (v : Word) : Addr := v ++ 0#1

/-- A byte address shifted right by one, as %o7 and the vector table hold it (R264; 60_exceptions.md R338). -/
def codeWord (addr : Addr) : Word := addr.extractLsb' 1 32

/-- The target of BR and BSR: `pc + ((sext(IMM11) + 1) << 1)`, modulo 2^33 (R263, R52). -/
def branchTarget (pc : Addr) (imm : BitVec 11) : Addr := pc + (imm.signExtend 33 + 1#33) * 2#33

/-- Shift left by 0 to 31, zero fill (41_logic_shift.md R177, R178). -/
def shiftLeft (x : Word) (n : BitVec 5) : Word := x <<< n.toNat

/-- Shift right by 0 to 31, zero fill (R179, R180). -/
def shiftRight (x : Word) (n : BitVec 5) : Word := x >>> n.toNat

/-- Shift right by 0 to 31, filled with the sign (R181, R182). -/
def shiftRightSigned (x : Word) (n : BitVec 5) : Word := x.sshiftRight n.toNat

/-- The shift count of a register, its low five bits (R177). -/
def shiftCount (x : Word) : BitVec 5 := x.extractLsb' 0 5

end Sys2Proof.Machine
end

