-- ==== Sys2Proof/Machine/Ops.lean ====
section
/-! DEFINITION. The named operations every meaning is written over: registers through the window
(10_state.md R36, R38), memory accesses (20_memory.md R84 to R86), the ways an instruction ends
(10_state.md R70 steps 5 and 6), taking an exception (60_exceptions.md R336) and returning from one (R342).
An operation that can stop takes the rest of the instruction as a continuation. -/

namespace Sys2Proof.Machine

/-- What a meaning answers. -/
abbrev Out := Host.Outcome State Fault Refusal

/-! ### Registers -/

/-- The physical register a visible one names: `R[i]` for a global, `R[16*CWP + i]` for a windowed one (R36). -/
def physIndex (cwp : BitVec 5) (i : RegIdx) : Nat :=
  if i.toNat < 8 then i.toNat else 16 * cwp.toNat + i.toNat

/-- The physical index of visible register `i` in the current window. -/
def State.phys (s : State) (i : RegIdx) : Nat := physIndex s.status.cwp i

/-- The value of visible register `i`, `none` where it lies outside the file (R36, R38). -/
def State.reg? (s : State) (i : RegIdx) : Option Word := s.regs[s.phys i]?

/-- Write visible register `i` (R36); nothing where it lies outside the file, which `writeReg` refuses. -/
def State.putReg (s : State) (i : RegIdx) (v : Word) : State := { s with regs := s.regs.set (s.phys i) v }

/-- Read visible register `i`, or refuse (R38). -/
def readReg (s : State) (i : RegIdx) (rest : Word → Out) : Out :=
  match s.reg? i with
  | some v => rest v
  | none => .refused (.outsideRegisterFile (s.phys i))

/-- Write visible register `i`, or refuse (R38). -/
def writeReg (s : State) (i : RegIdx) (v : Word) (rest : State → Out) : Out :=
  if s.phys i < s.regs.length then rest (s.putReg i v) else .refused (.outsideRegisterFile (s.phys i))

/-- %r0, the implicit operand of FILL, MSTEP, MUL and the partial stores (R40). -/
def regR0 : RegIdx := 0#5
/-- %sp = %o6 (R35). -/
def regSp : RegIdx := 14#5
/-- %o7, where BSR, CALL and exception entry leave the return address (R35, R40). -/
def regO7 : RegIdx := 15#5
/-- %fp = %i6 (R35). -/
def regFp : RegIdx := 30#5
/-- %i7, the highest register of a window (R35). -/
def regI7 : RegIdx := 31#5

/-- Replace the condition code flags. -/
def State.setFlags (s : State) (f : Flags) : State := { s with status := { s.status with flags := f } }

/-- Move the register window (R41). -/
def State.setCwp (s : State) (cwp : BitVec 5) : State := { s with status := { s.status with cwp := cwp } }

/-- Set or clear STATUS.IE alone (R62, R63). -/
def State.setIe (s : State) (ie : Bool) : State := { s with status := { s.status with ie := ie } }

/-! ### Memory -/

/-- `MemRead(addr, 4)` (R84), refused where the map does not back all four bytes (R93). -/
def loadWord (s : State) (addr : Nat) (rest : Word → Out) : Out :=
  if bytesBacked s.cfg addr 4 then rest (Memory.readWord s.mem addr) else .refused (.unbackedAddress addr)

/-- `MemRead(addr, 2)` as data (R84): the look at the half-word after a WRCTL (45_system.md R299). -/
def loadHalf (s : State) (addr : Nat) (rest : Half → Out) : Out :=
  if bytesBacked s.cfg addr 2 then rest (Memory.readHalf s.mem addr) else .refused (.unbackedAddress addr)

/-- Was a byte of the half-word at `addr` stored to since the last control transfer (R98)? -/
def State.stale (s : State) (addr : Nat) : Bool := s.stored.contains addr || s.stored.contains (addr + 1)

/-- `MemRead(addr, 2)` as an instruction fetch (R86), refused where R98 leaves it without a meaning. -/
def fetchHalf (s : State) (addr : Nat) (rest : Half → Out) : Out :=
  loadHalf s addr fun w => if s.stale addr then .refused (.staleFetch addr) else rest w

/-! ### How an instruction ends -/

/-- `next`: the pending branch target in a delay slot, `pc + 2` otherwise (R51), modulo 2^33 (R52). -/
def State.next (s : State) : Addr :=
  match s.ds with
  | some t => t
  | none => s.pc + 2#33

/-- K and PFXF after an instruction other than PFX (R45, R47). -/
def State.clearPrefix (s : State) : State := { s with k := 0#11, pfxf := false }

/-- The sequential end (R70 step 6): to `next`, the delay slot consumed. A delay slot completes its branch,
so the bytes stored before are no longer stale (R98). -/
def State.advance (s : State) : State :=
  { s.clearPrefix with pc := s.next, ds := none, stored := if s.ds.isSome then [] else s.stored }

/-- End an instruction sequentially. -/
def finish (s : State) : Out := .next s.advance

/-- `MemWrite(addr, n, v)` of the bytes `vs` (R85), then the sequential end; the bytes written are
remembered (R98), those of a store in a delay slot too. Refused, with nothing written, where the map does
not back them all (R93). -/
def storeAndFinish (s : State) (addr : Nat) (vs : List Byte) : Out :=
  if bytesBacked s.cfg addr vs.length then
    let t := State.advance { s with mem := Memory.writeBytes s.mem addr vs }
    .next { t with stored := insertAddrs addr vs.length t.stored }
  else .refused (.unbackedAddress addr)

/-- The twelve instructions barred from a delay slot are refused there (44_control_flow.md R262). -/
def outsideDelaySlot (s : State) (rest : Out) : Out :=
  if s.ds.isSome then .refused .barredInDelaySlot else rest

/-- A delayed transfer (R70 case (c)): the next instruction runs first, then the target. -/
def delayedTo (s : State) (target : Addr) : Out :=
  .next { s.clearPrefix with pc := s.pc + 2#33, ds := some target }

/-- The end of a SKP-type instruction (44_control_flow.md R270): where the test holds, past the next
instruction, or past a PFX and the instruction after it. -/
def skipIf (s : State) (test : Bool) : Out :=
  if test then
    fetchHalf s (s.pc + 2#33).toNat fun w =>
      .next { s.clearPrefix with pc := s.pc + (if isPfxWord w then 6#33 else 4#33) }
  else finish s

/-! ### Exceptions -/

/-- The byte address of vector table entry `n`, `VECBASE + 4n` (60_exceptions.md R322). -/
def vectorAddr (c : Config) (n : BitVec 6) : Nat := (c.vecBase + n.setWidth 33 * 4#33).toNat

/-- Steps 1 to 4 of R336: STATUS into ISTATUS, the new window (but for the underflow exception, whose SAVE
moved it), IE = 0, IPRI = n. -/
def State.exceptionStatus (s : State) (n : BitVec 6) (underflow : Bool) : State :=
  { s with
    istatus := s.status
    status := { s.status with
      cwp := if underflow then s.status.cwp else s.status.cwp - 1#5
      ie := false
      ipri := n } }

/-- Has the handler a window (R340)? "Entry at any CWP whose predecessor window lies outside the file is
`refuse`"; at CWP = 0, where the new CWP is 31, %o7's own index decides, which `writeReg` checks. The window of
the underflow exception is the one its SAVE has opened and read %fp in. -/
def State.hasHandlerWindow (s : State) (underflow : Bool) : Bool :=
  underflow || s.status.cwp == 0#5 || decide (physIndex (s.status.cwp - 1#5) regI7 < s.regs.length)

/-- `Exception(n, ret, underflow)` (R336): the entry sequence of every exception, refused where the handler has
no window (R340). K, PFXF and DS end clear (R341), and an exception entry is a control transfer (R98). -/
def enterException (s : State) (n : BitVec 6) (ret : Addr) (underflow : Bool) : Out :=
  if s.hasHandlerWindow underflow then
    writeReg (s.exceptionStatus n underflow) regO7 (codeWord ret) fun t =>
      loadWord t (vectorAddr t.cfg n) fun v =>
        .next { t.clearPrefix with pc := codeAddr v, ds := none, stored := [] }
  else .refused (.handlerWindowOutsideFile (s.status.cwp - 1#5))

/-- Is an internal exception with number `n` processed: IE = 1 and IPRI > n (R335)? -/
def State.takesInternal (s : State) (n : BitVec 6) : Bool :=
  s.status.ie && decide (n.toNat < s.status.ipri.toNat)

/-- `STATUS <- ISTATUS; pc <- target`, no delay slot (R342; 45_system.md R296). TRET is a control transfer (R98). -/
def returnFromException (s : State) (target : Addr) : Out :=
  .next { s.clearPrefix with status := s.istatus, pc := target, ds := none, stored := [] }

/-! ### Shapes shared by many meanings -/

/-- `x[A] <- f(x[A])`, no flag. -/
def unary (s : State) (a : RegIdx) (f : Word → Word) : Out :=
  readReg s a fun x => writeReg s a (f x) finish

/-- `x[A] <- f(x[A], x[B])`, no flag; both operands are read before the write (00_scope.md R12). -/
def binary (s : State) (a b : RegIdx) (f : Word → Word → Word) : Out :=
  readReg s a fun x => readReg s b fun y => writeReg s a (f x y) finish

/-- `x[A] <- v` and the flags. -/
def writeWithFlags (s : State) (a : RegIdx) (v : Word) (f : Flags) : Out :=
  writeReg (s.setFlags f) a v finish

end Sys2Proof.Machine
end

