-- ==== Sys2Proof/Machine/Arithmetic.lean ====
section
/-! DEFINITION. Arithmetic instructions (40_arithmetic.md). -/

namespace Sys2Proof.Machine

/-- ADD (R153). -/
def execAdd (a b : RegIdx) (s : State) : Out :=
  readReg s a fun x => readReg s b fun y => writeWithFlags s a (x + y) (addFlags x y)

/-- ADDI (R154). -/
def execAddi (a : RegIdx) (imm : BitVec 5) (s : State) : Out :=
  readReg s a fun x => writeWithFlags s a (x + imm16 s.k imm) (addFlags x (imm16 s.k imm))

/-- SUB (R155). -/
def execSub (a b : RegIdx) (s : State) : Out :=
  readReg s a fun x => readReg s b fun y => writeWithFlags s a (x - y) (subFlags x y)

/-- SUBI (R156). -/
def execSubi (a : RegIdx) (imm : BitVec 5) (s : State) : Out :=
  readReg s a fun x => writeWithFlags s a (x - imm16 s.k imm) (subFlags x (imm16 s.k imm))

/-- CMP (R158): the result is discarded. -/
def execCmp (a b : RegIdx) (s : State) : Out :=
  readReg s a fun x => readReg s b fun y => finish (s.setFlags (subFlags x y))

/-- CMPI (R159). -/
def execCmpi (a : RegIdx) (imm : BitVec 5) (s : State) : Out :=
  readReg s a fun x => finish (s.setFlags (subFlags x (imm16 s.k imm)))

/-- NEG (R160): no flag is written. -/
def execNeg (a : RegIdx) (s : State) : Out := unary s a fun x => 0#32 - x

/-- ABS (R157). -/
def execAbs (a : RegIdx) (s : State) : Out := unary s a fun x => if x.msb then 0#32 - x else x

/-- One step of an unsigned multiply on the accumulator %r0 (R161). -/
def multiplyStep (r0 ra : Word) : Word := if r0.msb then r0 <<< 1 + ra else r0 <<< 1

/-- MSTEP (R161). -/
def execMstep (a : RegIdx) (s : State) : Out :=
  readReg s regR0 fun r0 => readReg s a fun ra => writeReg s regR0 (multiplyStep r0 ra) finish

/-- The unsigned product of the low half-words (R162; 90_conflicts.md C6). -/
def multiplyLow (x y : Word) : Word := (x &&& 0xFFFF#32) * (y &&& 0xFFFF#32)

/-- MUL (R162). -/
def execMul (a : RegIdx) (s : State) : Out :=
  readReg s regR0 fun r0 => readReg s a fun ra => writeReg s regR0 (multiplyLow r0 ra) finish

end Sys2Proof.Machine
end

