-- ==== Sys2Proof/Machine/ControlFlow.lean ====
section
/-! DEFINITION. Branches, jumps and conditional skips (44_control_flow.md). All nine are barred from a delay
slot (R262). -/

namespace Sys2Proof.Machine

/-- The return address BSR and CALL leave in %o7: `((pc + 4) >> 1)[31:0]` (R264, R266). -/
def linkWord (s : State) : Word := codeWord (s.pc + 4#33)

/-- BR (R263). -/
def execBr (imm : BitVec 11) (s : State) : Out :=
  outsideDelaySlot s <| delayedTo s (branchTarget s.pc imm)

/-- BSR (R264). -/
def execBsr (imm : BitVec 11) (s : State) : Out :=
  outsideDelaySlot s <| writeReg s regO7 (linkWord s) fun t => delayedTo t (branchTarget s.pc imm)

/-- JMP (R265): the target is read when the jump executes. -/
def execJmp (a : RegIdx) (s : State) : Out :=
  outsideDelaySlot s <| readReg s a fun x => delayedTo s (codeAddr x)

/-- CALL (R266): the target is read before %o7 is written. -/
def execCall (a : RegIdx) (s : State) : Out :=
  outsideDelaySlot s <| readReg s a fun x =>
    writeReg s regO7 (linkWord s) fun t => delayedTo t (codeAddr x)

/-- Bit n of a register (R271). -/
def bitOf (x : Word) (n : BitVec 5) : Bool := x.getLsbD n.toNat

/-- SKP0 (R271). -/
def execSkp0 (a : RegIdx) (imm : BitVec 5) (s : State) : Out :=
  outsideDelaySlot s <| readReg s a fun x => skipIf s (!bitOf x imm)

/-- SKP1 (R272). -/
def execSkp1 (a : RegIdx) (imm : BitVec 5) (s : State) : Out :=
  outsideDelaySlot s <| readReg s a fun x => skipIf s (bitOf x imm)

/-- SKPRz (R273). -/
def execSkprz (a : RegIdx) (s : State) : Out :=
  outsideDelaySlot s <| readReg s a fun x => skipIf s (x == 0#32)

/-- SKPRnz (R274). -/
def execSkprnz (a : RegIdx) (s : State) : Out :=
  outsideDelaySlot s <| readReg s a fun x => skipIf s (x != 0#32)

/-- SKPS (R275): conditions 0xE and 0xF are refused (U6). -/
def execSkps (cond : BitVec 4) (s : State) : Out :=
  outsideDelaySlot s <|
    match conditionHolds cond s.status.flags with
    | some test => skipIf s test
    | none => .refused .unassignedCondition

end Sys2Proof.Machine
end

