-- ==== Sys2Proof/Machine/LoadStore.lean ====
section
/-! DEFINITION. Load and store instructions (43_load_store.md). The address functions are named, so that a
statement can compute the address an instruction uses. -/

namespace Sys2Proof.Machine

/-- LD, ST and the partial stores with any base: `align32(base + sK4)` (R232, R233, R238 to R241). -/
def baseAddr (k : BitVec 11) (base : Word) : Word := align32 (base + sK4 k)

/-- LDP and STP: `align32(x[16 + P] + off)` (R234, R235). -/
def pointerAddr (pfxf : Bool) (k : BitVec 11) (imm : BitVec 5) (base : Word) : Word :=
  align32 (base + pointerOffset pfxf k imm)

/-- LDS and STS: `align32(%sp + IMM8 * 4)` (R236, R237). -/
def stackAddr (imm : BitVec 8) (sp : Word) : Word := align32 (sp + imm.setWidth 32 * 4#32)

/-- STS8s: `align32(%sp + IMM10)` (R242). -/
def stackByteAddr (imm : BitVec 10) (sp : Word) : Word := align32 (sp + imm.setWidth 32)

/-- STS16s: `align32(%sp + IMM9 * 2)` (R243). -/
def stackHalfAddr (imm : BitVec 9) (sp : Word) : Word := align32 (sp + imm.setWidth 32 * 2#32)

/-- The byte address of lane n of the word at `addr` (R238). -/
def byteLaneAddr (addr : Word) (n : BitVec 2) : Nat := addr.toNat + n.toNat

/-- The byte address of half-word lane n of the word at `addr` (R240). -/
def halfLaneAddr (addr : Word) (n : BitVec 1) : Nat := addr.toNat + 2 * n.toNat

/-- Load the word at `addr` into register `a` (R230). -/
def loadTo (s : State) (a : RegIdx) (addr : Word) : Out :=
  loadWord s addr.toNat fun v => writeReg s a v finish

/-- Store a register's word at `addr` (R230). -/
def storeWordFrom (s : State) (a : RegIdx) (addr : Word) : Out :=
  readReg s a fun v => storeAndFinish s addr.toNat (wordBytes v)

/-- Store byte n of %r0 in byte n of the word at `addr` (R230 (f)). -/
def storeByteLane (s : State) (addr : Word) (n : BitVec 2) : Out :=
  readReg s regR0 fun v => storeAndFinish s (byteLaneAddr addr n) [byteOf v n]

/-- Store half-word n of %r0 in half-word n of the word at `addr` (R230 (f)). -/
def storeHalfLane (s : State) (addr : Word) (n : BitVec 1) : Out :=
  readReg s regR0 fun v => storeAndFinish s (halfLaneAddr addr n) (halfBytes (halfOf v n))

/-- LD (R232). -/
def execLd (a b : RegIdx) (s : State) : Out := readReg s b fun base => loadTo s a (baseAddr s.k base)

/-- ST (R233): `a` is the data register. -/
def execSt (a b : RegIdx) (s : State) : Out := readReg s b fun base => storeWordFrom s a (baseAddr s.k base)

/-- LDP (R234). -/
def execLdp (p : BitVec 2) (imm : BitVec 5) (a : RegIdx) (s : State) : Out :=
  readReg s (pointerReg p) fun base => loadTo s a (pointerAddr s.pfxf s.k imm base)

/-- STP (R235). -/
def execStp (p : BitVec 2) (imm : BitVec 5) (a : RegIdx) (s : State) : Out :=
  readReg s (pointerReg p) fun base => storeWordFrom s a (pointerAddr s.pfxf s.k imm base)

/-- LDS (R236): K is not used. -/
def execLds (imm : BitVec 8) (a : RegIdx) (s : State) : Out :=
  readReg s regSp fun sp => loadTo s a (stackAddr imm sp)

/-- STS (R237): K is not used. -/
def execSts (imm : BitVec 8) (a : RegIdx) (s : State) : Out :=
  readReg s regSp fun sp => storeWordFrom s a (stackAddr imm sp)

/-- ST8d (R238): the lane is the address register's low two bits. -/
def execSt8d (a : RegIdx) (s : State) : Out :=
  readReg s a fun base => storeByteLane s (baseAddr s.k base) (byteLane base)

/-- ST8s (R239): the lane is IMM2, the address register's low bits play no part. -/
def execSt8s (a : RegIdx) (imm : BitVec 2) (s : State) : Out :=
  readReg s a fun base => storeByteLane s (baseAddr s.k base) imm

/-- ST16d (R240): the lane is bit 1 of the address register. -/
def execSt16d (a : RegIdx) (s : State) : Out :=
  readReg s a fun base => storeHalfLane s (baseAddr s.k base) (halfLane base)

/-- ST16s (R241). -/
def execSt16s (a : RegIdx) (imm : BitVec 1) (s : State) : Out :=
  readReg s a fun base => storeHalfLane s (baseAddr s.k base) imm

/-- STS8s (R242): lane IMM10[1:0] of the word that holds %sp + IMM10 (90_conflicts.md C10). -/
def execSts8s (imm : BitVec 10) (s : State) : Out :=
  readReg s regSp fun sp => storeByteLane s (stackByteAddr imm sp) (imm.extractLsb' 0 2)

/-- STS16s (R243): lane IMM9[0] of the word that holds %sp + IMM9*2 (90_conflicts.md C10). -/
def execSts16s (imm : BitVec 9) (s : State) : Out :=
  readReg s regSp fun sp => storeHalfLane s (stackHalfAddr imm sp) (imm.extractLsb' 0 1)

end Sys2Proof.Machine
end

