-- ==== Sys2Proof/Machine/Logic.lean ====
section
/-! DEFINITION. Logic, shift, rotate and bit-generate instructions (41_logic_shift.md). -/

namespace Sys2Proof.Machine

/-- The second operand of AND, ANDN, OR and XOR: `K : IMM5` zero-extended after a PFX, register `b`
otherwise (R171). The prefixed form does not read the register. -/
def logicOperand (s : State) (b : BitVec 5) (rest : Word → Out) : Out :=
  if s.pfxf then rest (imm16 s.k b) else readReg s b rest

/-- `x[A] <- x[A] OP opnd`, N and Z from the result (R171). -/
def logicOp (s : State) (a : RegIdx) (b : BitVec 5) (op : Word → Word → Word) : Out :=
  readReg s a fun x => logicOperand s b fun y =>
    writeWithFlags s a (op x y) (logicFlags s.status.flags (op x y))

/-- AND (R172). -/
def execAnd (a : RegIdx) (b : BitVec 5) (s : State) : Out := logicOp s a b fun x y => x &&& y

/-- ANDN (R173): the complement is taken over all 32 bits, after zero-extension. -/
def execAndn (a : RegIdx) (b : BitVec 5) (s : State) : Out := logicOp s a b fun x y => x &&& ~~~y

/-- OR (R174). -/
def execOr (a : RegIdx) (b : BitVec 5) (s : State) : Out := logicOp s a b fun x y => x ||| y

/-- XOR (R175). -/
def execXor (a : RegIdx) (b : BitVec 5) (s : State) : Out := logicOp s a b fun x y => x ^^^ y

/-- NOT (R176): no flag is written. -/
def execNot (a : RegIdx) (s : State) : Out := unary s a fun x => ~~~x

/-- LSL (R177). -/
def execLsl (a b : RegIdx) (s : State) : Out := binary s a b fun x y => shiftLeft x (shiftCount y)

/-- LSLI (R178): K is not used. -/
def execLsli (a : RegIdx) (imm : BitVec 5) (s : State) : Out := unary s a fun x => shiftLeft x imm

/-- LSR (R179). -/
def execLsr (a b : RegIdx) (s : State) : Out := binary s a b fun x y => shiftRight x (shiftCount y)

/-- LSRI (R180). -/
def execLsri (a : RegIdx) (imm : BitVec 5) (s : State) : Out := unary s a fun x => shiftRight x imm

/-- ASR (R181). -/
def execAsr (a b : RegIdx) (s : State) : Out := binary s a b fun x y => shiftRightSigned x (shiftCount y)

/-- ASRI (R182). -/
def execAsri (a : RegIdx) (imm : BitVec 5) (s : State) : Out := unary s a fun x => shiftRightSigned x imm

/-- `((RA << 1) mod 2^32) | old C` (R183). -/
def rotateLeftC (x : Word) (c : Bool) : Word := x.extractLsb' 0 31 ++ BitVec.ofBool c

/-- `(old C << 31) | (RA >> 1)` (R184). -/
def rotateRightC (x : Word) (c : Bool) : Word := BitVec.ofBool c ++ x.extractLsb' 1 31

/-- RLC (R183): C receives bit 31 of the old RA, no other flag changes. -/
def execRlc (a : RegIdx) (s : State) : Out :=
  readReg s a fun x =>
    writeWithFlags s a (rotateLeftC x s.status.flags.c) { s.status.flags with c := x[31] }

/-- RRC (R184): C receives bit 0 of the old RA, no other flag changes. -/
def execRrc (a : RegIdx) (s : State) : Out :=
  readReg s a fun x =>
    writeWithFlags s a (rotateRightC x s.status.flags.c) { s.status.flags with c := x[0] }

/-- BGEN (R185): RA is not read. -/
def execBgen (a : RegIdx) (imm : BitVec 5) (s : State) : Out := writeReg s a (shiftLeft 1#32 imm) finish

end Sys2Proof.Machine
end

