-- ==== Sys2Proof/Machine/MoveExtract.lean ====
section
/-! DEFINITION. Move, sign-extend, extract, fill and prefix instructions (42_move_extract.md). -/

namespace Sys2Proof.Machine

/-- MOV (R201). -/
def execMov (a b : RegIdx) (s : State) : Out := readReg s b fun y => writeReg s a y finish

/-- MOVI (R202). -/
def execMovi (a : RegIdx) (imm : BitVec 5) (s : State) : Out := writeReg s a (imm16 s.k imm) finish

/-- MOVHI (R203): the low half-word is unaffected. -/
def execMovhi (a : RegIdx) (imm : BitVec 5) (s : State) : Out :=
  unary s a fun x => kImm5 s.k imm ++ halfOf x 0#1

/-- SWAP (R204): half-words, not bytes. -/
def execSwap (a : RegIdx) (s : State) : Out := unary s a fun x => halfOf x 0#1 ++ halfOf x 1#1

/-- SEXT8 (R205). -/
def execSext8 (a : RegIdx) (s : State) : Out := unary s a fun x => (byteOf x 0#2).signExtend 32

/-- SEXT16 (R206). -/
def execSext16 (a : RegIdx) (s : State) : Out := unary s a fun x => (halfOf x 0#1).signExtend 32

/-- Byte n zero-extended (R207, R208). -/
def extractByte (x : Word) (n : BitVec 2) : Word := (byteOf x n).setWidth 32

/-- Half-word n zero-extended (R209, R210). -/
def extractHalf (x : Word) (n : BitVec 1) : Word := (halfOf x n).setWidth 32

/-- EXT8d (R207). -/
def execExt8d (a b : RegIdx) (s : State) : Out := binary s a b fun x y => extractByte x (byteLane y)

/-- EXT8s (R208). -/
def execExt8s (a : RegIdx) (imm : BitVec 2) (s : State) : Out := unary s a fun x => extractByte x imm

/-- EXT16d (R209). -/
def execExt16d (a b : RegIdx) (s : State) : Out := binary s a b fun x y => extractHalf x (halfLane y)

/-- EXT16s (R210). -/
def execExt16s (a : RegIdx) (imm : BitVec 1) (s : State) : Out := unary s a fun x => extractHalf x imm

/-- Four copies of byte 0 (R211; 90_conflicts.md C22). -/
def fillByte (x : Word) : Word := byteOf x 0#2 ++ byteOf x 0#2 ++ byteOf x 0#2 ++ byteOf x 0#2

/-- Two copies of half-word 0 (R212). -/
def fillHalf (x : Word) : Word := halfOf x 0#1 ++ halfOf x 0#1

/-- FILL8 (R211): the destination is always %r0. -/
def execFill8 (a : RegIdx) (s : State) : Out := readReg s a fun x => writeReg s regR0 (fillByte x) finish

/-- FILL16 (R212): the destination is always %r0. -/
def execFill16 (a : RegIdx) (s : State) : Out := readReg s a fun x => writeReg s regR0 (fillHalf x) finish

/-- PFX (R220), barred from a delay slot (R200) and refused right after another PFX (R224). -/
def execPfx (imm : BitVec 11) (s : State) : Out :=
  outsideDelaySlot s <|
    if s.pfxf then .refused .consecutivePrefix
    else .next { s.advance with k := imm, pfxf := true }

end Sys2Proof.Machine
end

