-- ==== Sys2Proof/Machine/System.lean ====
section
/-! DEFINITION. Window, trap and control-register instructions, and the reserved opcodes (45_system.md). -/

namespace Sys2Proof.Machine

/-- The number of the register window underflow exception (60_exceptions.md R321). -/
def underflowNumber : BitVec 6 := 1#6

/-- The number of the register window overflow exception (60_exceptions.md R321). -/
def overflowNumber : BitVec 6 := 2#6

/-- SAVE (R291): it completes, and where the window was LO_LIMIT and exceptions are enabled it then takes
the underflow exception in the window it opened (R292). -/
def execSave (imm : BitVec 8) (s : State) : Out :=
  let opened := s.setCwp (s.status.cwp - 1#5)
  readReg opened regFp fun fp =>
    writeReg opened regSp (fp - imm.setWidth 32 * 4#32) fun t =>
      if s.status.cwp == s.wvalid.lo && s.takesInternal underflowNumber
      then enterException t underflowNumber s.next true
      else finish t

/-- RESTORE (R293): it completes, and where the window was HI_LIMIT and exceptions are enabled it then takes
the overflow exception. -/
def execRestore (s : State) : Out :=
  let closed := s.setCwp (s.status.cwp + 1#5)
  if s.status.cwp == s.wvalid.hi && s.takesInternal overflowNumber
  then enterException closed overflowNumber s.next false
  else finish closed

/-- TRAP (R294): always processed, return address `pc + 2`. -/
def execTrap (imm : BitVec 6) (s : State) : Out :=
  outsideDelaySlot s <| enterException s imm (s.pc + 2#33) false

/-- TRET (R296): RA is read in the handler's window, before STATUS changes. -/
def execTret (a : RegIdx) (s : State) : Out :=
  outsideDelaySlot s <| readReg s a fun x => returnFromException s (codeAddr x)

/-- The control registers that have an index (10_state.md R53). -/
inductive ControlReg where
  | status
  | istatus
  | wvalid
  | clrIe
  | setIe
  deriving DecidableEq, Repr

/-- The control register K selects; `none` for the indices without one (R53, R64). -/
def controlReg (k : BitVec 11) : Option ControlReg :=
  match k.toNat with
  | 0 => some .status
  | 1 => some .istatus
  | 2 => some .wvalid
  | 8 => some .clrIe
  | 9 => some .setIe
  | _ => none

/-- What RDCTL delivers (R297), `free` giving the bits the spec calls `any value` (R62, R63, R65). -/
def controlValue (s : State) (free : Word) : ControlReg → Word
  | .status => free.extractLsb' 16 16 ++ s.status.toWord
  | .istatus => free.extractLsb' 16 16 ++ s.istatus.toWord
  | .wvalid => free.extractLsb' 10 22 ++ s.wvalid.toBits
  | .clrIe => free
  | .setIe => free

/-- RDCTL (R297). -/
def execRdctl (a : RegIdx) (s : State) : Out :=
  match controlReg s.k with
  | some c =>
    writeReg { s with freeCount := s.freeCount + 1 } a (controlValue s (Config.freeWord s.freeCount) c) finish
  | none => .refused (.undefinedControlRegister s.k.toNat)

/-- A write of STATUS is defined only before a NOP (R299): the half-word at `next` must be 0x3000. -/
def beforeNop (s : State) (rest : Out) : Out :=
  loadHalf s s.next.toNat fun w => if w == nopWord then rest else .refused .statusWriteWithoutNop

/-- The write of one control register (R298); bits above its width are ignored (R65). -/
def writeControl (s : State) (v : Word) : ControlReg → Out
  | .status => beforeNop s <| finish { s with status := Status.ofWord (v.extractLsb' 0 16) }
  | .istatus => finish { s with istatus := Status.ofWord (v.extractLsb' 0 16) }
  | .wvalid =>
    finish (if s.cfg.wvalidWritable then { s with wvalid := Wvalid.ofBits (v.extractLsb' 0 10) } else s)
  | .clrIe => finish (s.setIe false)
  | .setIe => finish (s.setIe true)

/-- WRCTL (R298). -/
def execWrctl (a : RegIdx) (s : State) : Out :=
  readReg s a fun v =>
    match controlReg s.k with
    | some c => writeControl s v c
    | none => .refused (.undefinedControlRegister s.k.toNat)

/-- USR0, "Reserved for future use" (R300). -/
def execUsr0 (_a _b : RegIdx) (_s : State) : Out := .refused (.reservedOpcode "USR0")

/-- USR1, "Reserved for future use" (R301). -/
def execUsr1 (_a : RegIdx) (_s : State) : Out := .refused (.reservedOpcode "USR1")

/-- USR2, "Reserved for future use" (R302). -/
def execUsr2 (_a : RegIdx) (_s : State) : Out := .refused (.reservedOpcode "USR2")

/-- USR3, "Reserved for future use" (R303). -/
def execUsr3 (_a : RegIdx) (_s : State) : Out := .refused (.reservedOpcode "USR3")

/-- USR4, "Reserved for future use" (R304). -/
def execUsr4 (_a : RegIdx) (_s : State) : Out := .refused (.reservedOpcode "USR4")

end Sys2Proof.Machine
end

