-- ==== Sys2Proof/Machine/Interrupt.lean ====
section
/-! DEFINITION. External interrupts (60_exceptions.md R331 to R334). The CPU keeps no memory of a request:
State holds only the inputs still to come, one pair a step (log entry 8). -/

namespace Sys2Proof.Machine

/-- No request: what every step past the end of the list samples. -/
def irqIdle : IrqInput := { irq := false, number := 0#6 }

/-- The inputs of this step (R332). -/
def State.irqNow (s : State) : IrqInput := s.irqs.headD irqIdle

/-- The step has sampled its inputs. -/
def State.tick (s : State) : State := { s with irqs := s.irqs.tail }

/-- Is the interrupt of this step accepted (R333)? -/
def State.acceptsIrq (s : State) : Bool :=
  s.irqNow.irq && s.status.ie && decide (s.irqNow.number.toNat < s.status.ipri.toNat) && !s.pfxf && s.ds.isNone

/-- The step in which an interrupt is accepted: no instruction executes, the return location is `pc` (R333,
R338). -/
def State.takeIrq (s : State) : Out := enterException s.tick s.irqNow.number s.pc false

end Sys2Proof.Machine
end

