-- ==== Sys2Proof/Machine/Fetch.lean ====
section
/-! DEFINITION. Fetching and decoding the instruction at `pc` (10_state.md R70 steps 2 and 3; 20_memory.md
R86), and placing one there. -/

namespace Sys2Proof.Machine

/-- Refuse a word that is no instruction, by name (30_encoding.md R123, R124). -/
def decodeOr (w : Half) (rest : Instr → Out) : Out :=
  match decodeWord w with
  | .ok i => rest i
  | .error .nonzeroFixedBits => .refused (.nonzeroFixedBits w)
  | .error _ => .refused (.unassignedEncoding w)

/-- `insn <- MemRead(pc, 2)`, decoded (R70 steps 2 and 3). -/
def fetchDecode (s : State) (rest : Instr → Out) : Out := fetchHalf s s.pc.toNat fun w => decodeOr w rest

/-- Memory with one instruction word at a byte address, low byte first (R81). -/
def placeHalf (m : Memory) (addr : Nat) (w : Nat) : Memory :=
  Memory.writeBytes m addr (halfBytes (BitVec.ofNat 16 w))

/-- The inputs with no request in the next step. -/
def quietNext (irqs : List IrqInput) : List IrqInput :=
  match irqs with
  | [] => []
  | _ :: rest => irqIdle :: rest

end Sys2Proof.Machine
end

