-- ==== Sys2Proof/Machine/Step.lean ====
section
/-! DEFINITION. One step of the CPU (10_state.md R70), and how an instruction comes to stand where the next
step fetches (log entry 7). -/

namespace Sys2Proof.Machine

/-- One step (R70): an accepted interrupt pre-empts the instruction at `pc`, otherwise that instruction runs. -/
def step (s : State) : Host.Outcome State Fault Refusal :=
  if s.acceptsIrq then s.takeIrq else fetchDecode s.tick fun i => exec i s.tick

/-- `s` with the instruction word `w` at `pc`, ready for the next step to fetch: the word counts as loaded
from outside (20_memory.md R98), and no interrupt pre-empts it. Every instruction is one 16-bit word, so
bits of `w` from 16 up do not exist. -/
def State.withFetchWord (s : State) (_nbits w : Nat) : State :=
  { s with
    mem := placeHalf s.mem s.pc.toNat w
    stored := s.stored.filter fun addr => addr != s.pc.toNat && addr != s.pc.toNat + 1
    irqs := if s.acceptsIrq then quietNext s.irqs else s.irqs }

end Sys2Proof.Machine
end

