-- ==== Sys2Proof/Safety.lean ====
section
/-! DEFINITION. What counts as a good state, what the spec allows after reset, and the vocabulary of the
statements: frames, and results read back byte by byte or as exact numbers, independently of the operations
that compute them. -/

namespace Sys2Proof.Machine

/-! ### Good states -/

/-- The invariant every step keeps. -/
structure Invariant (s : State) : Prop where
  /-- "the least-significant bit of the PC value is always 0" (10_state.md R48, R49). -/
  pcEven : s.pc.toNat % 2 = 0
  /-- DS is `none` or an even address (R30 item 8). -/
  slotEven : ∀ t, s.ds = some t → t.toNat % 2 = 0
  /-- K is non-zero only for an instruction immediately following PFX (R45, R47). -/
  prefixFlagged : s.pfxf = false → s.k = 0#11
  /-- PFX cannot stand in a delay slot (44_control_flow.md R262), and a branch clears PFXF (R47). -/
  prefixedNotInSlot : s.pfxf = true → s.ds = none
  /-- The register file has NREG registers (R31). -/
  registerFile : s.regs.length = s.cfg.fileSize.nreg
  /-- The parameters keep their constraints (60_exceptions.md R323). -/
  parameters : s.cfg.wf = true
  /-- Memory is in its canonical form. -/
  memoryCanonical : Memory.wf s.mem = true

/-- A state the spec allows right after reset (R76; 70_reset_and_hazards.md R371): the stated values, and the
registers, the flags, the memory and the inputs to come unspecified. K, PFXF and DS are the spec's own choice
(92_eei_decisions.md D2). -/
structure ResetState (s : State) : Prop where
  interruptsOff : s.status.ie = false
  lowestPriority : s.status.ipri.toNat = 63
  highestWindow : s.status.cwp.toNat = s.cfg.fileSize.nreg / 16 - 2
  savedStatusZero : s.istatus.toWord = 0#16
  highLimit : s.wvalid.hi.toNat = s.cfg.fileSize.nreg / 16 - 2
  lowLimit : s.wvalid.lo.toNat = 1
  pcAtReset : s.pc = s.cfg.resetPc
  prefixZero : s.k = 0#11
  notPrefixed : s.pfxf = false
  noSlot : s.ds = none
  registerFile : s.regs.length = s.cfg.fileSize.nreg
  parameters : s.cfg.wf = true
  memoryCanonical : Memory.wf s.mem = true
  /-- "Loading a program into memory before reset ... is outside this rule" (20_memory.md R98). -/
  nothingStored : s.stored = []

/-! ### Frames -/

/-- Every byte of memory reads as before. -/
def SameMemory (s t : State) : Prop := ∀ addr, Memory.read t.mem addr = Memory.read s.mem addr

/-- Every byte of memory outside `addr` to `addr + n - 1` reads as before. -/
def SameMemoryOutside (s t : State) (addr n : Nat) : Prop :=
  ∀ a, a < addr ∨ addr + n ≤ a → Memory.read t.mem a = Memory.read s.mem a

/-- Every physical register but those listed is unchanged. -/
def SameRegistersBut (s t : State) (changed : List Nat) : Prop :=
  t.regs.length = s.regs.length ∧ ∀ p, p ∉ changed → t.regs[p]? = s.regs[p]?

/-- IE, IPRI, CWP, ISTATUS and WVALID, and the parameters, are unchanged: every control register but the flags. -/
def SameControl (s t : State) : Prop :=
  t.status.ie = s.status.ie ∧ t.status.ipri = s.status.ipri ∧ t.status.cwp = s.status.cwp ∧
    t.istatus = s.istatus ∧ t.wvalid = s.wvalid ∧ t.cfg = s.cfg

/-- Registers, flags, control registers and memory are unchanged. -/
def Untouched (s t : State) : Prop :=
  t.regs = s.regs ∧ t.status.flags = s.status.flags ∧ SameControl s t ∧ SameMemory s t

/-- Only visible register `a` and the flags changed: they are `v` and `f`. -/
def WritesRegisterAndFlags (s t : State) (a : RegIdx) (v : Word) (f : Flags) : Prop :=
  t.reg? a = some v ∧ SameRegistersBut s t [s.phys a] ∧ t.status.flags = f ∧ SameControl s t ∧ SameMemory s t

/-- Only visible register `a` changed: it is `v`. -/
def WritesRegister (s t : State) (a : RegIdx) (v : Word) : Prop :=
  WritesRegisterAndFlags s t a v s.status.flags

/-- Only the `n` bytes of memory at `addr` changed. -/
def StoresOnly (s t : State) (addr n : Nat) : Prop :=
  SameMemoryOutside s t addr n ∧ t.regs = s.regs ∧ t.status.flags = s.status.flags ∧ SameControl s t

/-! ### Values -/

/-- The word `v` stands at `addr`, byte j at `addr + j` (20_memory.md R81, R84). -/
def WordAt (m : Memory) (addr : Nat) (v : Word) : Prop :=
  ∀ j, j < 4 → Memory.read m (addr + j) = v.extractLsb' (8 * j) 8

/-- The half-word `v` stands at `addr`, byte j at `addr + j` (R81, R84). -/
def HalfAt (m : Memory) (addr : Nat) (v : Half) : Prop :=
  ∀ j, j < 2 → Memory.read m (addr + j) = v.extractLsb' (8 * j) 8

/-- `p` is the exact sum `n`, where `n` is a 33-bit address. (What a sum outside gives is the spec's decision
D4, 10_state.md R52, which a statement over `AddressIs` does not rest on.) -/
def AddressIs (p : Addr) (n : Int) : Prop := 0 ≤ n → n < 2 ^ 33 → (p.toNat : Int) = n

/-- The flags of an addition (40_arithmetic.md R151, R57): N result bit 31, Z result zero, C carry out, V "bit
31 of 32-bit result is different from sign of result computed with unlimited precision". -/
def AddFlagsOf (x y r : Word) (f : Flags) : Prop :=
  f.n = r.msb ∧ f.z = decide (r.toNat = 0) ∧ f.c = decide (2 ^ 32 ≤ x.toNat + y.toNat) ∧
    f.v = (r.msb != decide (x.toInt + y.toInt < 0))

/-- The flags of a subtraction (R152, R57): C is the borrow. -/
def SubFlagsOf (x y r : Word) (f : Flags) : Prop :=
  f.n = r.msb ∧ f.z = decide (r.toNat = 0) ∧ f.c = decide (x.toNat < y.toNat) ∧
    f.v = (r.msb != decide (x.toInt - y.toInt < 0))

/-- The flags of a logic instruction (41_logic_shift.md R171): N and Z from the result, V and C as before. -/
def LogicFlagsOf (old : Flags) (r : Word) (f : Flags) : Prop :=
  f.n = r.msb ∧ f.z = decide (r.toNat = 0) ∧ f.v = old.v ∧ f.c = old.c

/-- `imm16`: the number `K : IMM5` (30_encoding.md R127). -/
def immediateNumber (s : State) (imm : BitVec 5) : Nat := 32 * s.k.toNat + imm.toNat

/-- STATUS or ISTATUS as bits 15:0 of a register value: IE [15], IPRI [14:9], CWP [8:4], N V Z C [3:0] (R58). -/
def StatusBits (st : Status) (v : Word) : Prop :=
  st.ie = v.getLsbD 15 ∧ st.ipri = v.extractLsb' 9 6 ∧ st.cwp = v.extractLsb' 4 5 ∧
    st.flags.n = v.getLsbD 3 ∧ st.flags.v = v.getLsbD 2 ∧ st.flags.z = v.getLsbD 1 ∧ st.flags.c = v.getLsbD 0

/-- WVALID as bits 9:0 of a register value: HI_LIMIT [9:5], LO_LIMIT [4:0] (R60). -/
def WvalidBits (w : Wvalid) (v : Word) : Prop := w.hi = v.extractLsb' 5 5 ∧ w.lo = v.extractLsb' 0 5

/-! ### Skips and exceptions -/

/-- The half-word after the instruction is a PFX: bits 15:11 are 10011 (44_control_flow.md R270). -/
def NextIsPrefix (s : State) : Prop :=
  (Memory.read s.mem ((s.pc + 2#33).toNat + 1)).extractLsb' 3 5 = 0b10011#5

/-- The half-word after the instruction can be fetched: backed, and not stored to since the last control
transfer (20_memory.md R93, R98). -/
def NextFetchable (s : State) : Prop :=
  bytesBacked s.cfg (s.pc + 2#33).toNat 2 = true ∧ s.stale (s.pc + 2#33).toNat = false

/-- How a SKP-type instruction ends (R270): nothing changes but the pc, which passes the next instruction
where the test is true, and a PFX pair as a whole. -/
def SkipEnds (s t : State) (test : Prop) : Prop :=
  Untouched s t ∧ t.ds = none ∧
    (¬ test → AddressIs t.pc (s.pc.toNat + 2)) ∧
    (test → NextIsPrefix s → AddressIs t.pc (s.pc.toNat + 6)) ∧
    (test → ¬ NextIsPrefix s → AddressIs t.pc (s.pc.toNat + 4))

/-- Where a SKP-type instruction leaves the pc (R270), modulo 2^33 (decision D4). -/
def SkipGoes (s t : State) (test : Prop) : Prop :=
  (¬ test → t.pc = s.pc + 2#33) ∧ (test → NextIsPrefix s → t.pc = s.pc + 6#33) ∧
    (test → ¬ NextIsPrefix s → t.pc = s.pc + 4#33)

/-- The byte address of entry `n` of the vector table (60_exceptions.md R322). -/
def vectorEntry (s : State) (n : BitVec 6) : Nat := s.cfg.vecBase.toNat + 4 * n.toNat

/-- The pc is twice the word of vector entry `n`, where the parameters keep their constraints (60_exceptions.md
R322, R323). -/
def GoesToVector (s t : State) (n : BitVec 6) : Prop :=
  s.cfg.wf = true → ∃ v, WordAt s.mem (vectorEntry s n) v ∧ t.pc.toNat = 2 * v.toNat

/-- The exception sequence of R336 has been done in `t`, for number `n`, return location `ret` and handler
window `cwp`: `saved` is in ISTATUS, IE and IPRI and CWP are the handler's, the flags are kept, %o7 of the
handler's window holds `ret >> 1`, and the pc is twice the vector entry's word. WVALID, the parameters and
memory are as in `s`. -/
def ExceptionEntered (s t : State) (saved : Status) (cwp : BitVec 5) (n : BitVec 6) (ret : Addr) : Prop :=
  t.istatus = saved ∧
  t.status.ie = false ∧ t.status.ipri = n ∧ t.status.cwp = cwp ∧ t.status.flags = saved.flags ∧
  (∃ r, t.reg? regO7 = some r ∧ r.toNat = ret.toNat / 2) ∧
  (∃ v, WordAt s.mem (vectorEntry s n) v ∧ t.pc.toNat = 2 * v.toNat) ∧
  t.k = 0#11 ∧ t.pfxf = false ∧ t.ds = none ∧
  t.wvalid = s.wvalid ∧ t.cfg = s.cfg ∧ SameMemory s t

/-- Visible register `i` of window `cwp` lies inside the register file (10_state.md R36, R38). -/
def InFile (s : State) (cwp : BitVec 5) (i : RegIdx) : Prop := physIndex cwp i < s.regs.length

/-- An exception entered at window pointer `cwp` has a window for its handler (60_exceptions.md R340): %o7 of
the window below lies in the file, and so does that whole window, but for the entry at CWP = 0. -/
def HandlerWindow (s : State) (cwp : BitVec 5) : Prop :=
  InFile s (cwp - 1#5) regO7 ∧ (cwp ≠ 0#5 → InFile s (cwp - 1#5) regI7)

/-- The vector entry of exception `n` can be read (20_memory.md R93). -/
def VectorBacked (s : State) (n : BitVec 6) : Prop :=
  s.cfg.wf = true ∧ bytesBacked s.cfg (vectorEntry s n) 4 = true

end Sys2Proof.Machine

namespace Sys2Proof

/-- The word `w` is the encoding of `i`: it decodes to it (30_encoding.md R118, R119). -/
def Encodes (w : Half) (i : Instr) : Prop := decodeWord w = .ok i

/-- The twelve instructions barred from a delay slot (44_control_flow.md R262). -/
def Instr.barredFromSlot : Instr → Bool
  | .br _ | .bsr _ | .jmp _ | .call _ | .pfx _ | .skp0 _ _ | .skp1 _ _ | .skprz _ | .skprnz _ | .skps _
  | .tret _ | .trap _ => true
  | _ => false

/-- AND, ANDN, OR and XOR, the instructions that read PFXF (41_logic_shift.md R171; 10_state.md R47). -/
def Instr.readsPrefixFlag : Instr → Bool
  | .and _ _ | .andn _ _ | .or _ _ | .xor _ _ => true
  | _ => false

/-- The instructions whose operation mentions K (30_encoding.md R132), and PFX. -/
def Instr.usesPrefix : Instr → Bool
  | .addi _ _ | .subi _ _ | .cmpi _ _ | .movi _ _ | .movhi _ _
  | .and _ _ | .andn _ _ | .or _ _ | .xor _ _
  | .ld _ _ | .st _ _ | .st8d _ | .st8s _ _ | .st16d _ | .st16s _ _
  | .ldp _ _ _ | .stp _ _ _ | .rdctl _ | .wrctl _ | .pfx _ => true
  | _ => false

/-- The nine stores (43_load_store.md R230). -/
def Instr.stores : Instr → Bool
  | .st _ _ | .stp _ _ _ | .sts _ _ | .st8d _ | .st8s _ _ | .sts8s _ | .st16d _ | .st16s _ _ | .sts16s _ => true
  | _ => false

end Sys2Proof
end

