-- ==== Sys2Proof/Certificates/Slice0/Obligations.lean ====
section
/-! DEFINITION. The statements for the provers. Those about an instruction say, for every state and operands
that meet the hypotheses, that it completes, what it writes, and that nothing else changes; `AddressIs`,
`WordAt`, `AddFlagsOf` and the other words they use are in Sys2Proof/Safety.lean. -/

open Sys2Proof Sys2Proof.Machine

/-- Decoding what the encoder writes gives the instruction back, whatever its operands, and leaves the bytes
that follow (30_encoding.md R110, R111, R118). -/
def Obligations.DecodeOfEncodeIsIdentity : Prop :=
  ∀ (i : Instr) (rest : List Byte),
    decodeWord (encode i) = .ok i ∧ decodeBytes (encodeBytes i ++ rest) = .ok (i, rest)

/-- Every word that decodes is the word of the instruction it decodes to: no bit of an assigned encoding is
ignored (30_encoding.md R124, R125). For the six formats with fixed-zero bits this rests on the spec's decision
D10, which refuses a word with a one there (log entry 30). -/
def Obligations.EncodeOfDecodedWordIsIdentity : Prop :=
  ∀ (w : Half) (i : Instr), decodeWord w = .ok i → encode i = w

/-- The complete opcode map, row by row: each pattern of 30_encoding.md R119 with any operand fields decodes to its
instruction, and each unassigned row decodes to none. -/
def Obligations.OpcodeMapDecodes : Prop :=
  (∀ (a : BitVec 5) (b : BitVec 5), decodeWord (0b000000#6 ++ b ++ a) = .ok (.add a b)) ∧
  (∀ (a : BitVec 5) (imm : BitVec 5), decodeWord (0b000001#6 ++ imm ++ a) = .ok (.addi a imm)) ∧
  (∀ (a : BitVec 5) (b : BitVec 5), decodeWord (0b000010#6 ++ b ++ a) = .ok (.sub a b)) ∧
  (∀ (a : BitVec 5) (imm : BitVec 5), decodeWord (0b000011#6 ++ imm ++ a) = .ok (.subi a imm)) ∧
  (∀ (a : BitVec 5) (b : BitVec 5), decodeWord (0b000100#6 ++ b ++ a) = .ok (.cmp a b)) ∧
  (∀ (a : BitVec 5) (imm : BitVec 5), decodeWord (0b000101#6 ++ imm ++ a) = .ok (.cmpi a imm)) ∧
  (∀ (a : BitVec 5) (b : BitVec 5), decodeWord (0b000110#6 ++ b ++ a) = .ok (.lsl a b)) ∧
  (∀ (a : BitVec 5) (imm : BitVec 5), decodeWord (0b000111#6 ++ imm ++ a) = .ok (.lsli a imm)) ∧
  (∀ (a : BitVec 5) (b : BitVec 5), decodeWord (0b001000#6 ++ b ++ a) = .ok (.lsr a b)) ∧
  (∀ (a : BitVec 5) (imm : BitVec 5), decodeWord (0b001001#6 ++ imm ++ a) = .ok (.lsri a imm)) ∧
  (∀ (a : BitVec 5) (b : BitVec 5), decodeWord (0b001010#6 ++ b ++ a) = .ok (.asr a b)) ∧
  (∀ (a : BitVec 5) (imm : BitVec 5), decodeWord (0b001011#6 ++ imm ++ a) = .ok (.asri a imm)) ∧
  (∀ (a : BitVec 5) (b : BitVec 5), decodeWord (0b001100#6 ++ b ++ a) = .ok (.mov a b)) ∧
  (∀ (a : BitVec 5) (imm : BitVec 5), decodeWord (0b001101#6 ++ imm ++ a) = .ok (.movi a imm)) ∧
  (∀ (a : BitVec 5) (b : BitVec 5), decodeWord (0b001110#6 ++ b ++ a) = .ok (.and a b)) ∧
  (∀ (a : BitVec 5) (b : BitVec 5), decodeWord (0b001111#6 ++ b ++ a) = .ok (.andn a b)) ∧
  (∀ (a : BitVec 5) (b : BitVec 5), decodeWord (0b010000#6 ++ b ++ a) = .ok (.or a b)) ∧
  (∀ (a : BitVec 5) (b : BitVec 5), decodeWord (0b010001#6 ++ b ++ a) = .ok (.xor a b)) ∧
  (∀ (a : BitVec 5) (imm : BitVec 5), decodeWord (0b010010#6 ++ imm ++ a) = .ok (.bgen a imm)) ∧
  (∀ (a : BitVec 5) (b : BitVec 5), decodeWord (0b010011#6 ++ b ++ a) = .ok (.ext8d a b)) ∧
  (∀ (a : BitVec 5) (imm : BitVec 5), decodeWord (0b010100#6 ++ imm ++ a) = .ok (.skp0 a imm)) ∧
  (∀ (a : BitVec 5) (imm : BitVec 5), decodeWord (0b010101#6 ++ imm ++ a) = .ok (.skp1 a imm)) ∧
  (∀ (a : BitVec 5) (b : BitVec 5), decodeWord (0b010110#6 ++ b ++ a) = .ok (.ld a b)) ∧
  (∀ (a : BitVec 5) (b : BitVec 5), decodeWord (0b010111#6 ++ b ++ a) = .ok (.st a b)) ∧
  (∀ (imm : BitVec 10), decodeWord (0b011000#6 ++ imm) = .ok (.sts8s imm)) ∧
  (∀ (imm : BitVec 9), decodeWord (0b011001#6 ++ imm ++ 0b0#1) = .ok (.sts16s imm)) ∧
  (∀ (a : BitVec 5) (b : BitVec 5), decodeWord (0b011010#6 ++ b ++ a) = .ok (.ext16d a b)) ∧
  (∀ (a : BitVec 5) (imm : BitVec 5), decodeWord (0b011011#6 ++ imm ++ a) = .ok (.movhi a imm)) ∧
  (∀ (a : BitVec 5) (b : BitVec 5), decodeWord (0b011100#6 ++ b ++ a) = .ok (.usr0 a b)) ∧
  (∀ (a : BitVec 5) (imm : BitVec 2), decodeWord (0b011101000#9 ++ imm ++ a) = .ok (.ext8s a imm)) ∧
  (∀ (a : BitVec 5) (imm : BitVec 1), decodeWord (0b011101001#9 ++ imm ++ 0b0#1 ++ a) = .ok (.ext16s a imm)) ∧
  (∀ (a : BitVec 5) (imm : BitVec 2), decodeWord (0b011101100#9 ++ imm ++ a) = .ok (.st8s a imm)) ∧
  (∀ (a : BitVec 5) (imm : BitVec 1), decodeWord (0b011101101#9 ++ imm ++ 0b0#1 ++ a) = .ok (.st16s a imm)) ∧
  (∀ (imm : BitVec 8), decodeWord (0b01111000#8 ++ imm) = .ok (.save imm)) ∧
  (∀ (imm : BitVec 6), decodeWord (0b0111100100#10 ++ imm) = .ok (.trap imm)) ∧
  (∀ (a : BitVec 5), decodeWord (0b01111100000#11 ++ a) = .ok (.not a)) ∧
  (∀ (a : BitVec 5), decodeWord (0b01111100001#11 ++ a) = .ok (.neg a)) ∧
  (∀ (a : BitVec 5), decodeWord (0b01111100010#11 ++ a) = .ok (.abs a)) ∧
  (∀ (a : BitVec 5), decodeWord (0b01111100011#11 ++ a) = .ok (.sext8 a)) ∧
  (∀ (a : BitVec 5), decodeWord (0b01111100100#11 ++ a) = .ok (.sext16 a)) ∧
  (∀ (a : BitVec 5), decodeWord (0b01111100101#11 ++ a) = .ok (.rlc a)) ∧
  (∀ (a : BitVec 5), decodeWord (0b01111100110#11 ++ a) = .ok (.rrc a)) ∧
  (∀ (a : BitVec 5), decodeWord (0b01111101000#11 ++ a) = .ok (.swap a)) ∧
  (∀ (a : BitVec 5), decodeWord (0b01111101001#11 ++ a) = .ok (.usr1 a)) ∧
  (∀ (a : BitVec 5), decodeWord (0b01111101010#11 ++ a) = .ok (.usr2 a)) ∧
  (∀ (a : BitVec 5), decodeWord (0b01111101011#11 ++ a) = .ok (.usr3 a)) ∧
  (∀ (a : BitVec 5), decodeWord (0b01111101100#11 ++ a) = .ok (.usr4 a)) ∧
  (decodeWord (0b0111110110100000#16) = .ok .restore) ∧
  (∀ (a : BitVec 5), decodeWord (0b01111101110#11 ++ a) = .ok (.tret a)) ∧
  (∀ (a : BitVec 5), decodeWord (0b01111110000#11 ++ a) = .ok (.st8d a)) ∧
  (∀ (a : BitVec 5), decodeWord (0b01111110001#11 ++ a) = .ok (.st16d a)) ∧
  (∀ (a : BitVec 5), decodeWord (0b01111110010#11 ++ a) = .ok (.fill8 a)) ∧
  (∀ (a : BitVec 5), decodeWord (0b01111110011#11 ++ a) = .ok (.fill16 a)) ∧
  (∀ (a : BitVec 5), decodeWord (0b01111110100#11 ++ a) = .ok (.mstep a)) ∧
  (∀ (a : BitVec 5), decodeWord (0b01111110101#11 ++ a) = .ok (.mul a)) ∧
  (∀ (a : BitVec 5), decodeWord (0b01111110110#11 ++ a) = .ok (.skprz a)) ∧
  (∀ (cond : BitVec 4), decodeWord (0b011111101110#12 ++ cond) = .ok (.skps cond)) ∧
  (∀ (a : BitVec 5), decodeWord (0b01111111000#11 ++ a) = .ok (.wrctl a)) ∧
  (∀ (a : BitVec 5), decodeWord (0b01111111001#11 ++ a) = .ok (.rdctl a)) ∧
  (∀ (a : BitVec 5), decodeWord (0b01111111010#11 ++ a) = .ok (.skprnz a)) ∧
  (∀ (a : BitVec 5), decodeWord (0b01111111110#11 ++ a) = .ok (.jmp a)) ∧
  (∀ (a : BitVec 5), decodeWord (0b01111111111#11 ++ a) = .ok (.call a)) ∧
  (∀ (imm : BitVec 11), decodeWord (0b10000#5 ++ imm) = .ok (.br imm)) ∧
  (∀ (imm : BitVec 11), decodeWord (0b10001#5 ++ imm) = .ok (.bsr imm)) ∧
  (∀ (imm : BitVec 11), decodeWord (0b10011#5 ++ imm) = .ok (.pfx imm)) ∧
  (∀ (p : BitVec 2) (imm : BitVec 5) (a : BitVec 5), decodeWord (0b1010#4 ++ p ++ imm ++ a) = .ok (.stp p imm a)) ∧
  (∀ (p : BitVec 2) (imm : BitVec 5) (a : BitVec 5), decodeWord (0b1011#4 ++ p ++ imm ++ a) = .ok (.ldp p imm a)) ∧
  (∀ (imm : BitVec 8) (a : BitVec 5), decodeWord (0b110#3 ++ imm ++ a) = .ok (.sts imm a)) ∧
  (∀ (imm : BitVec 8) (a : BitVec 5), decodeWord (0b111#3 ++ imm ++ a) = .ok (.lds imm a)) ∧
  (∀ (x : BitVec 7), decodeWord (0b011101010#9 ++ x) = .error .unassigned) ∧
  (∀ (x : BitVec 7), decodeWord (0b011101011#9 ++ x) = .error .unassigned) ∧
  (∀ (x : BitVec 7), decodeWord (0b011101110#9 ++ x) = .error .unassigned) ∧
  (∀ (x : BitVec 7), decodeWord (0b011101111#9 ++ x) = .error .unassigned) ∧
  (∀ (x : BitVec 8), decodeWord (0b01111010#8 ++ x) = .error .unassigned) ∧
  (∀ (x : BitVec 8), decodeWord (0b01111011#8 ++ x) = .error .unassigned) ∧
  (∀ (x : BitVec 5), decodeWord (0b01111100111#11 ++ x) = .error .unassigned) ∧
  (∀ (x : BitVec 5), decodeWord (0b01111101111#11 ++ x) = .error .unassigned) ∧
  (∀ (x : BitVec 5), decodeWord (0b01111111011#11 ++ x) = .error .unassigned) ∧
  (∀ (x : BitVec 5), decodeWord (0b01111111100#11 ++ x) = .error .unassigned) ∧
  (∀ (x : BitVec 5), decodeWord (0b01111111101#11 ++ x) = .error .unassigned) ∧
  (∀ (x : BitVec 11), decodeWord (0b10010#5 ++ x) = .error .unassigned)

/-- The unassigned encodings are exactly those of 30_encoding.md R122. -/
def Obligations.UnassignedEncodingsAreExactly : Prop :=
  ∀ w : Half, decodeWord w = .error .unassigned ↔
    (w.extractLsb' 10 6 = 0b011101#6 ∧
        (w.extractLsb' 7 3 = 0b010#3 ∨ w.extractLsb' 7 3 = 0b011#3 ∨
          w.extractLsb' 7 3 = 0b110#3 ∨ w.extractLsb' 7 3 = 0b111#3)) ∨
    (w.extractLsb' 10 6 = 0b011110#6 ∧ (w.extractLsb' 8 2 = 0b10#2 ∨ w.extractLsb' 8 2 = 0b11#2)) ∨
    (w.extractLsb' 10 6 = 0b011111#6 ∧
        (w.extractLsb' 5 5 = 0b00111#5 ∨ w.extractLsb' 5 5 = 0b01111#5 ∨ w.extractLsb' 5 5 = 0b11011#5 ∨
          w.extractLsb' 5 5 = 0b11100#5 ∨ w.extractLsb' 5 5 = 0b11101#5)) ∨
    w.extractLsb' 11 5 = 0b10010#5

/-- A word is refused for its fixed-zero bits exactly where one of the six formats of 30_encoding.md R124 draws a zero
and the word has a one. (That such a word is treated as unassigned is the spec's decision D10; log entry 30.) -/
def Obligations.FixedZeroBitsAreChecked : Prop :=
  ∀ w : Half, decodeWord w = .error .nonzeroFixedBits ↔
    (w.extractLsb' 7 9 = 0b011101001#9 ∧ w.getLsbD 5 = true) ∨
    (w.extractLsb' 7 9 = 0b011101101#9 ∧ w.getLsbD 5 = true) ∨
    (w.extractLsb' 10 6 = 0b011001#6 ∧ w.getLsbD 0 = true) ∨
    (w.extractLsb' 8 8 = 0b01111001#8 ∧ w.extractLsb' 6 2 ≠ 0b00#2) ∨
    (w.extractLsb' 5 11 = 0b01111110111#11 ∧ w.getLsbD 4 = true) ∨
    (w.extractLsb' 5 11 = 0b01111101101#11 ∧ w.extractLsb' 0 5 ≠ 0b00000#5)

/-- A few words of the source's own examples decode to the instructions they stand for (95_test_vectors.md section 2). -/
def Obligations.SampleWordsDecode : Prop :=
  decodeWord 0x0013#16 = .ok (.add 19#5 0#5) ∧ decodeWord 0x04D5#16 = .ok (.addi 21#5 6#5) ∧
  decodeWord 0x3000#16 = .ok (.mov 0#5 0#5) ∧ decodeWord 0x5B60#16 = .ok (.ld 0#5 27#5) ∧
  decodeWord 0x5C1B#16 = .ok (.st 27#5 0#5) ∧ decodeWord 0xB86B#16 = .ok (.ldp 2#2 3#5 11#5) ∧
  decodeWord 0xC23D#16 = .ok (.sts 17#8 29#5) ∧ decodeWord 0x7817#16 = .ok (.save 23#8) ∧
  decodeWord 0x7DCF#16 = .ok (.tret 15#5) ∧ decodeWord 0x7EE3#16 = .ok (.skps 3#4) ∧
  decodeWord 0x8810#16 = .ok (.bsr 16#11) ∧ decodeWord 0x9803#16 = .ok (.pfx 3#11)

/-- When no interrupt is accepted and the half-word at pc decodes to an instruction, the step is that instruction's
meaning, in the state that has sampled this step's interrupt inputs (10_state.md R70). The hypotheses say that
the half-word can be fetched: it is backed (20_memory.md R93) and was not stored to since the last control
transfer (R98). -/
def Obligations.StepRunsTheDecodedInstruction : Prop :=
  ∀ (s : State) (w : Half) (i : Instr),
    s.acceptsIrq = false → bytesBacked s.cfg s.pc.toNat 2 = true → s.stale s.pc.toNat = false →
    HalfAt s.mem s.pc.toNat w → decodeWord w = .ok i →
    step s = exec i { s with irqs := s.irqs.tail }

/-- An interrupt request with a number below IPRI, with IE = 1, no PFX pending and no delay slot pending, is taken:
the step completes with the exception sequence done for its number, the return location is pc, and no
instruction executes (60_exceptions.md R333, R336, R338; the delay-slot condition is the spec's decision D11,
K, PFXF and DS at entry D26, one input pair a step D25). -/
def Obligations.StepTakesAcceptedInterrupt : Prop :=
  ∀ (s : State) (number : BitVec 6) (later : List IrqInput),
    s.irqs = { irq := true, number := number } :: later →
    s.status.ie = true → number.toNat < s.status.ipri.toNat → s.pfxf = false → s.ds = none →
    HandlerWindow s s.status.cwp → VectorBacked s number →
    ∃ t, step s = .next t ∧
      ExceptionEntered s t s.status (s.status.cwp - 1#5) number s.pc ∧
      SameRegistersBut s t [physIndex (s.status.cwp - 1#5) regO7] ∧ t.irqs = later

/-- A request that is masked (IE = 0, a number not below IPRI, after a PFX, or before a delay slot) has no effect: the
step is the one with no request (60_exceptions.md R333: "When the conditions do not hold the request has no
effect in that step"; the delay-slot condition is the spec's decision D11). -/
def Obligations.MaskedInterruptHasNoEffect : Prop :=
  ∀ (s : State) (number : BitVec 6) (later : List IrqInput),
    s.irqs = { irq := true, number := number } :: later →
    (s.status.ie = false ∨ s.status.ipri.toNat ≤ number.toNat ∨ s.pfxf = true ∨ s.ds ≠ none) →
    step s = step { s with irqs := { irq := false, number := number } :: later }

/-- Where no interrupt is accepted: a half-word outside the memory map, one stored to since the last control transfer,
and a word that is no instruction are refused, each by name (20_memory.md R93, R98; 30_encoding.md R123, R124; the
spec's decisions D19, D17, D10; log entries 6, 10, 30). -/
def Obligations.StepStopsWhatItCannotFetch : Prop :=
  ∀ s : State, s.acceptsIrq = false →
    (bytesBacked s.cfg s.pc.toNat 2 = false → step s = .refused (.unbackedAddress s.pc.toNat)) ∧
    (bytesBacked s.cfg s.pc.toNat 2 = true → s.stale s.pc.toNat = true →
      step s = .refused (.staleFetch s.pc.toNat)) ∧
    (bytesBacked s.cfg s.pc.toNat 2 = true → s.stale s.pc.toNat = false → ∀ w, HalfAt s.mem s.pc.toNat w →
      (decodeWord w = .error .unassigned → step s = .refused (.unassignedEncoding w)) ∧
      (decodeWord w = .error .nonzeroFixedBits → step s = .refused (.nonzeroFixedBits w)))

/-- After reset STATUS has IE = 0, IPRI = 63, CWP = HI_MAX, ISTATUS is 0, WVALID has HI_LIMIT = HI_MAX and LO_LIMIT = 1
(10_state.md R54 to R60, R76; 70_reset_and_hazards.md R371), for every configuration and whatever the registers
and the flags hold, which the spec leaves unspecified. K = 0, PFXF = 0 and DS = none are the spec's own choice
(D2; log entry 4), and pc is its parameter RESET_PC. The reset state the model names, with its chosen values
(log entries 1 to 5), is one of these. -/
def Obligations.ResetLeavesStatedValues : Prop :=
  (∀ (c : Config) (regs : List Word) (f : Flags), c.wf = true → regs.length = c.fileSize.nreg →
    ∃ s, s = State.resetWith c regs f ∧ ResetState s ∧ s.cfg = c ∧ s.regs = regs ∧ s.status.flags = f ∧
      s.status.toWord = 0x7E00#16 ||| (BitVec.ofNat 16 (c.fileSize.nreg / 16 - 2) <<< 4) |||
        (BitVec.ofBool f.n ++ BitVec.ofBool f.v ++ BitVec.ofBool f.z ++ BitVec.ofBool f.c).setWidth 16 ∧
      s.wvalid.toBits.toNat = 32 * (c.fileSize.nreg / 16 - 2) + 1) ∧
  ResetState State.reset

/-- Every state the spec allows after reset meets the invariant, and so does the reset state the model names (its
configuration and register values are the model's choice, log entries 1 and 2). That K, PFXF and DS meet it rests
on their reset values, which are a choice as well (decision D2, log entry 4). -/
def Obligations.ResetMeetsInvariant : Prop :=
  (∀ s, ResetState s → Invariant s) ∧ Invariant State.reset

/-- Every step keeps the invariant, from every state that meets it: pc and DS stay even, K is non-zero only right after
PFX, a PFX pair is never in a delay slot, the register file keeps its size, the parameters are unchanged in form,
and memory keeps its canonical form (10_state.md R30, R31, R45, R47, R48; 44_control_flow.md R262). -/
def Obligations.InvariantKeptByEveryStep : Prop :=
  ∀ s t : State, Invariant s → step s = .next t → Invariant t

/-- The table of 10_state.md R66: which instructions write N, V, Z and C, and with what; every other instruction leaves
all four unchanged. -/
def Obligations.FlagWriterTable : Prop :=
  ∀ (i : Instr) (s t : State), exec i s = .next t →
    match i with
    | .add a b => ∃ x y r, s.reg? a = some x ∧ s.reg? b = some y ∧ r.toNat = (x.toNat + y.toNat) % 2 ^ 32 ∧
        AddFlagsOf x y r t.status.flags
    | .addi a imm => ∃ x y r, s.reg? a = some x ∧ y.toNat = immediateNumber s imm ∧
        r.toNat = (x.toNat + y.toNat) % 2 ^ 32 ∧ AddFlagsOf x y r t.status.flags
    | .sub a b | .cmp a b => ∃ x y r, s.reg? a = some x ∧ s.reg? b = some y ∧
        (r.toNat : Int) = ((x.toNat : Int) - y.toNat) % 2 ^ 32 ∧ SubFlagsOf x y r t.status.flags
    | .subi a imm | .cmpi a imm => ∃ x y r, s.reg? a = some x ∧ y.toNat = immediateNumber s imm ∧
        (r.toNat : Int) = ((x.toNat : Int) - y.toNat) % 2 ^ 32 ∧ SubFlagsOf x y r t.status.flags
    | .and a _ | .andn a _ | .or a _ | .xor a _ =>
        ∃ r, t.reg? a = some r ∧ LogicFlagsOf s.status.flags r t.status.flags
    | .rlc a => ∃ x, s.reg? a = some x ∧
        t.status.flags = { s.status.flags with c := decide (2 ^ 31 ≤ x.toNat) }
    | .rrc a => ∃ x, s.reg? a = some x ∧
        t.status.flags = { s.status.flags with c := decide (x.toNat % 2 = 1) }
    | .wrctl a =>
        if s.k = 0#11 then
          ∃ v, s.reg? a = some v ∧ t.status.flags =
            { n := v.getLsbD 3, v := v.getLsbD 2, z := v.getLsbD 1, c := v.getLsbD 0 }
        else t.status.flags = s.status.flags
    | .tret _ => t.status.flags = s.istatus.flags
    | _ => t.status.flags = s.status.flags

/-- The register window moves in exactly the ways 10_state.md R41 lists. (CWP counts modulo 32, the spec's decision D7;
the IPRI condition of the overflow exception is derived by the spec, 45_system.md R293, log entry 37.) -/
def Obligations.WindowPointerWriters : Prop :=
  (∀ (i : Instr) (s t : State), exec i s = .next t →
    match i with
    | .save _ => t.status.cwp = s.status.cwp - 1#5
    | .restore => t.status.cwp =
        if s.status.cwp = s.wvalid.hi ∧ s.status.ie = true ∧ 2 < s.status.ipri.toNat then s.status.cwp
        else s.status.cwp + 1#5
    | .trap _ => t.status.cwp = s.status.cwp - 1#5
    | .tret _ => t.status.cwp = s.istatus.cwp
    | .wrctl a =>
        if s.k = 0#11 then ∃ v, s.reg? a = some v ∧ t.status.cwp = v.extractLsb' 4 5
        else t.status.cwp = s.status.cwp
    | _ => t.status.cwp = s.status.cwp) ∧
  (∀ s t : State, s.acceptsIrq = true → step s = .next t → t.status.cwp = s.status.cwp - 1#5)

/-- K holds IMM11 after PFX and 0 after every other instruction (10_state.md R45). -/
def Obligations.PrefixRegisterAfterEveryInstruction : Prop :=
  ∀ (i : Instr) (s t : State), exec i s = .next t →
    match i with
    | .pfx imm => t.k = imm
    | _ => t.k = 0#11

/-- How pc, DS and PFXF stand after every instruction (10_state.md R47, R49, R50, R51, R70; 44_control_flow.md R263 to
R275; 45_system.md R291 to R296; 60_exceptions.md R322), assembled by the spec from the source's statements: where a
branch or jump leads, which way each skip goes by its test, and that TRAP and a SAVE or RESTORE that takes its
exception go to the vector entry. PC arithmetic is modulo 2^33, the spec's decision D4 (log entry 13); the return of a
SAVE or RESTORE in a delay slot to the branch target is D21 (log entry 23), K, PFXF and DS at entry D26 (log entry 28),
and the IPRI condition of RESTORE is derived by the spec (log entry 37). -/
def Obligations.ProgramCounterAfterEveryInstruction : Prop :=
  ∀ (i : Instr) (s t : State), exec i s = .next t →
    (match i with
      | .br imm | .bsr imm => s.ds = none ∧ t.pc = s.pc + 2#33 ∧
          t.ds = some (s.pc + 2#33 + 2#33 * imm.signExtend 33)
      | .jmp a | .call a => s.ds = none ∧ t.pc = s.pc + 2#33 ∧
          ∃ x d, s.reg? a = some x ∧ t.ds = some d ∧ d.toNat = 2 * x.toNat
      | .skp0 a imm => s.ds = none ∧ t.ds = none ∧
          ∃ x, s.reg? a = some x ∧ SkipGoes s t (x.getLsbD imm.toNat = false)
      | .skp1 a imm => s.ds = none ∧ t.ds = none ∧
          ∃ x, s.reg? a = some x ∧ SkipGoes s t (x.getLsbD imm.toNat = true)
      | .skprz a => s.ds = none ∧ t.ds = none ∧ ∃ x, s.reg? a = some x ∧ SkipGoes s t (x.toNat = 0)
      | .skprnz a => s.ds = none ∧ t.ds = none ∧ ∃ x, s.reg? a = some x ∧ SkipGoes s t (x.toNat ≠ 0)
      | .skps cond => s.ds = none ∧ t.ds = none ∧
          ∃ test, conditionHolds cond s.status.flags = some test ∧ SkipGoes s t (test = true)
      | .tret a => s.ds = none ∧ t.ds = none ∧ ∃ x, s.reg? a = some x ∧ t.pc.toNat = 2 * x.toNat
      | .trap n => s.ds = none ∧ t.ds = none ∧ GoesToVector s t n
      | .save _ => t.ds = none ∧
          if s.status.cwp = s.wvalid.lo ∧ s.status.ie = true ∧ 1 < s.status.ipri.toNat then GoesToVector s t 1#6
          else t.pc = s.ds.getD (s.pc + 2#33)
      | .restore => t.ds = none ∧
          if s.status.cwp = s.wvalid.hi ∧ s.status.ie = true ∧ 2 < s.status.ipri.toNat then GoesToVector s t 2#6
          else t.pc = s.ds.getD (s.pc + 2#33)
      | _ => t.ds = none ∧ t.pc = s.ds.getD (s.pc + 2#33)) ∧
    (match i with
      | .pfx _ => t.pfxf = true
      | _ => t.pfxf = false)

/-- Only the nine stores write memory: every other instruction, and the acceptance of an interrupt, leaves every byte as
it was (43_load_store.md R230; 60_exceptions.md R336: "no memory is written"). -/
def Obligations.MemoryChangedOnlyByStores : Prop :=
  (∀ (i : Instr) (s t : State), i.stores = false → exec i s = .next t → SameMemory s t) ∧
  (∀ s t : State, s.acceptsIrq = true → step s = .next t → SameMemory s t)

/-- Who can change the system fields: WVALID only WRCTL to %ctl2 where it is writable; ISTATUS only WRCTL to %ctl1 and the
instructions that enter an exception; IE and IPRI only WRCTL, exception entry and TRET; the parameters nothing
(10_state.md R53 to R60; 45_system.md R291 to R298; 60_exceptions.md R336). That a read-only WVALID keeps its value
is the spec's decision D20 (log entry 22), and the IPRI condition of RESTORE is derived by the spec (45_system.md
R293, log entry 37). -/
def Obligations.SystemRegisterWriters : Prop :=
  ∀ (i : Instr) (s t : State), exec i s = .next t →
    (t.wvalid ≠ s.wvalid → (∃ a, i = .wrctl a) ∧ s.k = 2#11 ∧ s.cfg.wvalidWritable = true) ∧
    (t.istatus ≠ s.istatus →
      ((∃ a, i = .wrctl a) ∧ s.k = 1#11) ∨ (∃ n, i = .trap n) ∨
      ((∃ n, i = .save n) ∧ s.status.cwp = s.wvalid.lo ∧ s.status.ie = true ∧ 1 < s.status.ipri.toNat) ∨
      (i = .restore ∧ s.status.cwp = s.wvalid.hi ∧ s.status.ie = true ∧ 2 < s.status.ipri.toNat)) ∧
    (t.status.ipri ≠ s.status.ipri →
      ((∃ a, i = .wrctl a) ∧ s.k = 0#11) ∨ (∃ a, i = .tret a) ∨ (∃ n, i = .trap n) ∨
      ((∃ n, i = .save n) ∧ s.status.ie = true) ∨ (i = .restore ∧ s.status.ie = true)) ∧
    (s.status.ie = false → t.status.ie = true →
      ((∃ a, i = .wrctl a) ∧ (s.k = 0#11 ∨ s.k = 9#11)) ∨ (∃ a, i = .tret a)) ∧
    t.cfg = s.cfg

/-- The twelve instructions of 44_control_flow.md R262 are refused in a delay slot, and no other instruction is refused
for being there. (That the case is refused is the spec's decision D23.) -/
def Obligations.BarredFromDelaySlot : Prop :=
  ∀ (i : Instr) (s : State),
    (i.barredFromSlot = true → s.ds ≠ none → exec i s = .refused .barredInDelaySlot) ∧
    (i.barredFromSlot = false → exec i s ≠ .refused .barredInDelaySlot)

/-- The window positions inside the file are 0 to HI_MAX, globals are defined at every CWP, and a read or a write of a
windowed register outside the file is refused (10_state.md R36, R38, the spec's decision D6). -/
def Obligations.WindowInsideFileUpToHiMax : Prop :=
  ∀ s : State, s.regs.length = s.cfg.fileSize.nreg →
    ((∀ i, InFile s s.status.cwp i) ↔ s.status.cwp.toNat ≤ s.cfg.fileSize.nreg / 16 - 2) ∧
    (∀ i : RegIdx, i.toNat < 8 → InFile s s.status.cwp i) ∧
    (∀ i : RegIdx, s.cfg.fileSize.nreg ≤ 16 * s.status.cwp.toNat + i.toNat → 8 ≤ i.toNat →
      (∀ a, exec (.mov a i) s = .refused (.outsideRegisterFile (16 * s.status.cwp.toNat + i.toNat))) ∧
      (∀ imm, exec (.movi i imm) s = .refused (.outsideRegisterFile (16 * s.status.cwp.toNat + i.toNat))))

/-- The out registers of a window are the in registers of the window below, the globals are common to all windows, and the
local registers of a window are no other visible register of any window (10_state.md R37, which the spec derives
from R36). -/
def Obligations.WindowsOverlap : Prop :=
  (∀ (s : State) (c : BitVec 5) (i : RegIdx), 1 ≤ c.toNat → 8 ≤ i.toNat → i.toNat < 16 →
    (s.setCwp (c - 1#5)).reg? (i + 16#5) = (s.setCwp c).reg? i) ∧
  (∀ (s : State) (c d : BitVec 5) (i : RegIdx), i.toNat < 8 → (s.setCwp c).reg? i = (s.setCwp d).reg? i) ∧
  (∀ (c d : BitVec 5) (i j : RegIdx), 16 ≤ i.toNat → i.toNat < 24 → physIndex c i = physIndex d j → 8 ≤ j.toNat →
    c = d ∧ i = j) ∧
  (∀ (c : BitVec 5) (i j : RegIdx), 1 ≤ c.toNat → physIndex c i = physIndex c j → i = j)

/-- MemRead and MemWrite are little-endian, a write changes its own bytes and no other, and a read after it gives the value
back (20_memory.md R84, R85). The clauses about writes are for memory in its canonical form, which every step
keeps (`InvariantKeptByEveryStep`). -/
def Obligations.MemoryReadsAndWrites : Prop :=
  ∀ (m : Memory) (addr : Nat),
    (∀ v : Word, WordAt m addr v ↔ Memory.readWord m addr = v) ∧
    (∀ v : Half, HalfAt m addr v ↔ Memory.readHalf m addr = v) ∧
    (Memory.wf m = true →
    (∀ v : Word, WordAt (Memory.writeBytes m addr (wordBytes v)) addr v ∧
      ∀ a, a < addr ∨ addr + 4 ≤ a → Memory.read (Memory.writeBytes m addr (wordBytes v)) a = Memory.read m a) ∧
    (∀ v : Half, HalfAt (Memory.writeBytes m addr (halfBytes v)) addr v ∧
      ∀ a, a < addr ∨ addr + 2 ≤ a → Memory.read (Memory.writeBytes m addr (halfBytes v)) a = Memory.read m a) ∧
    (∀ v : Byte, Memory.read (Memory.writeBytes m addr [v]) addr = v ∧
      ∀ a, a ≠ addr → Memory.read (Memory.writeBytes m addr [v]) a = Memory.read m a))

/-- ADD and ADDI (40_arithmetic.md R153, R154): the sum modulo 2^32 into RA, with the flags of R151. -/
def Obligations.AddWritesSumAndFlags : Prop :=
  ∀ (s : State) (a : RegIdx) (x : Word), s.reg? a = some x →
    (∀ (b : RegIdx) (y : Word), s.reg? b = some y →
      Encodes (0b000000#6 ++ b ++ a) (.add a b) ∧
      ∃ t r f, exec (.add a b) s = .next t ∧ r.toNat = (x.toNat + y.toNat) % 2 ^ 32 ∧
        AddFlagsOf x y r f ∧ WritesRegisterAndFlags s t a r f) ∧
    (∀ (imm : BitVec 5) (y : Word), y.toNat = immediateNumber s imm →
      Encodes (0b000001#6 ++ imm ++ a) (.addi a imm) ∧
      ∃ t r f, exec (.addi a imm) s = .next t ∧ r.toNat = (x.toNat + y.toNat) % 2 ^ 32 ∧
        AddFlagsOf x y r f ∧ WritesRegisterAndFlags s t a r f)

/-- SUB and SUBI (40_arithmetic.md R155, R156): the difference modulo 2^32 into RA, with the flags of R152 (C is the
borrow). -/
def Obligations.SubtractWritesDifferenceAndFlags : Prop :=
  ∀ (s : State) (a : RegIdx) (x : Word), s.reg? a = some x →
    (∀ (b : RegIdx) (y : Word), s.reg? b = some y →
      Encodes (0b000010#6 ++ b ++ a) (.sub a b) ∧
      ∃ t r f, exec (.sub a b) s = .next t ∧ (r.toNat : Int) = ((x.toNat : Int) - y.toNat) % 2 ^ 32 ∧
        SubFlagsOf x y r f ∧ WritesRegisterAndFlags s t a r f) ∧
    (∀ (imm : BitVec 5) (y : Word), y.toNat = immediateNumber s imm →
      Encodes (0b000011#6 ++ imm ++ a) (.subi a imm) ∧
      ∃ t r f, exec (.subi a imm) s = .next t ∧ (r.toNat : Int) = ((x.toNat : Int) - y.toNat) % 2 ^ 32 ∧
        SubFlagsOf x y r f ∧ WritesRegisterAndFlags s t a r f)

/-- CMP and CMPI (40_arithmetic.md R158, R159): the flags of the subtraction, and nothing else. -/
def Obligations.CompareWritesFlagsOnly : Prop :=
  ∀ (s : State) (a : RegIdx) (x : Word), s.reg? a = some x →
    (∀ (b : RegIdx) (y : Word), s.reg? b = some y →
      Encodes (0b000100#6 ++ b ++ a) (.cmp a b) ∧
      ∃ t r, exec (.cmp a b) s = .next t ∧ (r.toNat : Int) = ((x.toNat : Int) - y.toNat) % 2 ^ 32 ∧
        SubFlagsOf x y r t.status.flags ∧ t.regs = s.regs ∧ SameControl s t ∧ SameMemory s t) ∧
    (∀ (imm : BitVec 5) (y : Word), y.toNat = immediateNumber s imm →
      Encodes (0b000101#6 ++ imm ++ a) (.cmpi a imm) ∧
      ∃ t r, exec (.cmpi a imm) s = .next t ∧ (r.toNat : Int) = ((x.toNat : Int) - y.toNat) % 2 ^ 32 ∧
        SubFlagsOf x y r t.status.flags ∧ t.regs = s.regs ∧ SameControl s t ∧ SameMemory s t)

/-- NEG and ABS (40_arithmetic.md R160, R157), no flag written. The results for 0x80000000, where both leave the register
unchanged, are the spec's own derivation from the wrap at 32 bits (log entry 41). -/
def Obligations.NegateAndAbsolute : Prop :=
  ∀ (s : State) (a : RegIdx) (x : Word), s.reg? a = some x →
    (∃ t r, exec (.neg a) s = .next t ∧ r.toNat = (2 ^ 32 - x.toNat) % 2 ^ 32 ∧ WritesRegister s t a r) ∧
    (∃ t r, exec (.abs a) s = .next t ∧ r.toNat = x.toInt.natAbs ∧ WritesRegister s t a r)

/-- MUL (40_arithmetic.md R162; 90_conflicts.md C6): the unsigned product of the low half-words into %r0. -/
def Obligations.MultiplyWritesLowHalfProduct : Prop :=
  ∀ (s : State) (a : RegIdx) (x y : Word), s.reg? regR0 = some x → s.reg? a = some y →
    Encodes (0b01111110101#11 ++ a) (.mul a) ∧
    ∃ t r, exec (.mul a) s = .next t ∧ r.toNat = (x.toNat % 2 ^ 16) * (y.toNat % 2 ^ 16) ∧
      WritesRegister s t regR0 r

/-- MSTEP (40_arithmetic.md R161), A = 0 included, where both reads see the old %r0 (derived by the spec from R12; log
entry 18). -/
def Obligations.MultiplyStepAccumulates : Prop :=
  ∀ (s : State) (a : RegIdx) (x y : Word), s.reg? regR0 = some x → s.reg? a = some y →
    ∃ t r, exec (.mstep a) s = .next t ∧
      r.toNat = (2 * x.toNat + (if 2 ^ 31 ≤ x.toNat then y.toNat else 0)) % 2 ^ 32 ∧ WritesRegister s t regR0 r

/-- Sixteen multiply steps from m in the high half of the accumulator leave m * n, for m and n below 2^16 (40_arithmetic.md
R163, derived by the spec). -/
def Obligations.SixteenMultiplyStepsMultiply : Prop :=
  ∀ m n : Nat, m < 2 ^ 16 → n < 2 ^ 16 →
    ((fun r0 => multiplyStep r0 (BitVec.ofNat 32 n))^[16] (BitVec.ofNat 32 (m * 2 ^ 16))).toNat = m * n

/-- AND, ANDN, OR and XOR in both forms (41_logic_shift.md R171 to R175): the second operand is register B without a PFX and
the zero-extended K : IMM5 after one (then register B is not read); N and Z from the result, V and C unchanged. -/
def Obligations.LogicWritesResultAndSign : Prop :=
  ∀ (s : State) (a b : RegIdx) (x y : Word), s.reg? a = some x →
    ((s.pfxf = false ∧ s.reg? b = some y) ∨ (s.pfxf = true ∧ y.toNat = immediateNumber s b)) →
    (Encodes (0b001110#6 ++ b ++ a) (.and a b) ∧ Encodes (0b001111#6 ++ b ++ a) (.andn a b) ∧
      Encodes (0b010000#6 ++ b ++ a) (.or a b) ∧ Encodes (0b010001#6 ++ b ++ a) (.xor a b)) ∧
    (∃ t r f, exec (.and a b) s = .next t ∧ (∀ n, n < 32 → r.getLsbD n = (x.getLsbD n && y.getLsbD n)) ∧
      LogicFlagsOf s.status.flags r f ∧ WritesRegisterAndFlags s t a r f) ∧
    (∃ t r f, exec (.andn a b) s = .next t ∧ (∀ n, n < 32 → r.getLsbD n = (x.getLsbD n && !y.getLsbD n)) ∧
      LogicFlagsOf s.status.flags r f ∧ WritesRegisterAndFlags s t a r f) ∧
    (∃ t r f, exec (.or a b) s = .next t ∧ (∀ n, n < 32 → r.getLsbD n = (x.getLsbD n || y.getLsbD n)) ∧
      LogicFlagsOf s.status.flags r f ∧ WritesRegisterAndFlags s t a r f) ∧
    (∃ t r f, exec (.xor a b) s = .next t ∧ (∀ n, n < 32 → r.getLsbD n = (x.getLsbD n != y.getLsbD n)) ∧
      LogicFlagsOf s.status.flags r f ∧ WritesRegisterAndFlags s t a r f)

/-- NOT (41_logic_shift.md R176), SWAP, SEXT8 and SEXT16 (42_move_extract.md R204, R205, R206); no flag is written. -/
def Obligations.NotSwapAndSignExtend : Prop :=
  ∀ (s : State) (a : RegIdx) (x : Word), s.reg? a = some x →
    (Encodes (0b01111100000#11 ++ a) (.not a) ∧ ∃ t r, exec (.not a) s = .next t ∧
      (∀ n, n < 32 → r.getLsbD n = !x.getLsbD n) ∧ WritesRegister s t a r) ∧
    (Encodes (0b01111101000#11 ++ a) (.swap a) ∧ ∃ t r, exec (.swap a) s = .next t ∧
      r.toNat = (x.toNat % 2 ^ 16) * 2 ^ 16 + x.toNat / 2 ^ 16 ∧ WritesRegister s t a r) ∧
    (Encodes (0b01111100011#11 ++ a) (.sext8 a) ∧ ∃ t r, exec (.sext8 a) s = .next t ∧
      (∀ n, n < 32 → r.getLsbD n = x.getLsbD (min n 7)) ∧ WritesRegister s t a r) ∧
    (Encodes (0b01111100100#11 ++ a) (.sext16 a) ∧ ∃ t r, exec (.sext16 a) s = .next t ∧
      (∀ n, n < 32 → r.getLsbD n = x.getLsbD (min n 15)) ∧ WritesRegister s t a r)

/-- The six shifts (41_logic_shift.md R177 to R182): the count is the low five bits of RB, or IMM5; no flag is written and K
is not used. -/
def Obligations.ShiftsByZeroToThirtyOne : Prop :=
  ∀ (s : State) (a : RegIdx) (x : Word), s.reg? a = some x →
    (∀ (b : RegIdx) (y : Word), s.reg? b = some y →
      (Encodes (0b000110#6 ++ b ++ a) (.lsl a b) ∧ ∃ t r, exec (.lsl a b) s = .next t ∧
        r.toNat = x.toNat * 2 ^ (y.toNat % 32) % 2 ^ 32 ∧ WritesRegister s t a r) ∧
      (Encodes (0b001000#6 ++ b ++ a) (.lsr a b) ∧ ∃ t r, exec (.lsr a b) s = .next t ∧
        r.toNat = x.toNat / 2 ^ (y.toNat % 32) ∧ WritesRegister s t a r) ∧
      (Encodes (0b001010#6 ++ b ++ a) (.asr a b) ∧ ∃ t r, exec (.asr a b) s = .next t ∧
        r.toInt = x.toInt / 2 ^ (y.toNat % 32) ∧ WritesRegister s t a r)) ∧
    (∀ imm : BitVec 5,
      (Encodes (0b000111#6 ++ imm ++ a) (.lsli a imm) ∧ ∃ t r, exec (.lsli a imm) s = .next t ∧
        r.toNat = x.toNat * 2 ^ imm.toNat % 2 ^ 32 ∧ WritesRegister s t a r) ∧
      (Encodes (0b001001#6 ++ imm ++ a) (.lsri a imm) ∧ ∃ t r, exec (.lsri a imm) s = .next t ∧
        r.toNat = x.toNat / 2 ^ imm.toNat ∧ WritesRegister s t a r) ∧
      (Encodes (0b001011#6 ++ imm ++ a) (.asri a imm) ∧ ∃ t r, exec (.asri a imm) s = .next t ∧
        r.toInt = x.toInt / 2 ^ imm.toNat ∧ WritesRegister s t a r))

/-- RLC and RRC (41_logic_shift.md R183, R184): the old C enters, the bit shifted out becomes C, no other flag changes. -/
def Obligations.RotatesThroughCarry : Prop :=
  ∀ (s : State) (a : RegIdx) (x : Word), s.reg? a = some x →
    (Encodes (0b01111100101#11 ++ a) (.rlc a) ∧ ∃ t r, exec (.rlc a) s = .next t ∧
      r.toNat = 2 * x.toNat % 2 ^ 32 + s.status.flags.c.toNat ∧
      WritesRegisterAndFlags s t a r { s.status.flags with c := decide (2 ^ 31 ≤ x.toNat) }) ∧
    (Encodes (0b01111100110#11 ++ a) (.rrc a) ∧ ∃ t r, exec (.rrc a) s = .next t ∧
      r.toNat = s.status.flags.c.toNat * 2 ^ 31 + x.toNat / 2 ∧
      WritesRegisterAndFlags s t a r { s.status.flags with c := decide (x.toNat % 2 = 1) })

/-- BGEN (41_logic_shift.md R185): 2 to the power IMM5; the old value of RA is not read. -/
def Obligations.BitGenerate : Prop :=
  ∀ (s : State) (a imm : BitVec 5), InFile s s.status.cwp a →
    Encodes (0b010010#6 ++ imm ++ a) (.bgen a imm) ∧
    ∃ t r, exec (.bgen a imm) s = .next t ∧ r.toNat = 2 ^ imm.toNat ∧ WritesRegister s t a r

/-- MOV, MOVI and MOVHI (42_move_extract.md R201, R202, R203). Every visible register holds what was written to it, %r0
included. -/
def Obligations.MovesWriteRegister : Prop :=
  ∀ (s : State) (a : RegIdx), InFile s s.status.cwp a →
    (∀ (b : RegIdx) (y : Word), s.reg? b = some y →
      Encodes (0b001100#6 ++ b ++ a) (.mov a b) ∧
      ∃ t, exec (.mov a b) s = .next t ∧ WritesRegister s t a y) ∧
    (∀ imm : BitVec 5, Encodes (0b001101#6 ++ imm ++ a) (.movi a imm) ∧
      ∃ t r, exec (.movi a imm) s = .next t ∧ r.toNat = immediateNumber s imm ∧ WritesRegister s t a r) ∧
    (∀ (imm : BitVec 5) (x : Word), s.reg? a = some x →
      Encodes (0b011011#6 ++ imm ++ a) (.movhi a imm) ∧
      ∃ t r, exec (.movhi a imm) s = .next t ∧
        r.toNat = immediateNumber s imm * 2 ^ 16 + x.toNat % 2 ^ 16 ∧ WritesRegister s t a r)

/-- EXT8d, EXT8s, EXT16d and EXT16s (42_move_extract.md R207 to R210). That RB is read before RA is written where A = B
is derived by the spec from 00_scope.md R12 (decision D14, log entry 18). -/
def Obligations.ExtractsByteOrHalfWord : Prop :=
  ∀ (s : State) (a : RegIdx) (x : Word), s.reg? a = some x →
    (∀ (b : RegIdx) (y : Word), s.reg? b = some y →
      (∃ t r, exec (.ext8d a b) s = .next t ∧ r.toNat = x.toNat / 2 ^ (8 * (y.toNat % 4)) % 2 ^ 8 ∧
        WritesRegister s t a r) ∧
      (Encodes (0b011010#6 ++ b ++ a) (.ext16d a b) ∧ ∃ t r, exec (.ext16d a b) s = .next t ∧
        r.toNat = x.toNat / 2 ^ (16 * (y.toNat / 2 % 2)) % 2 ^ 16 ∧ WritesRegister s t a r)) ∧
    (∀ imm : BitVec 2, Encodes (0b011101000#9 ++ imm ++ a) (.ext8s a imm) ∧ ∃ t r, exec (.ext8s a imm) s = .next t ∧
      r.toNat = x.toNat / 2 ^ (8 * imm.toNat) % 2 ^ 8 ∧ WritesRegister s t a r) ∧
    (∀ imm : BitVec 1, Encodes (0b011101001#9 ++ imm ++ 0#1 ++ a) (.ext16s a imm) ∧
      ∃ t r, exec (.ext16s a imm) s = .next t ∧
        r.toNat = x.toNat / 2 ^ (16 * imm.toNat) % 2 ^ 16 ∧ WritesRegister s t a r)

/-- FILL8 and FILL16 (42_move_extract.md R211, R212): the destination is always %r0. -/
def Obligations.FillsReplicateIntoR0 : Prop :=
  ∀ (s : State) (a : RegIdx) (x : Word), s.reg? a = some x →
    (Encodes (0b01111110010#11 ++ a) (.fill8 a) ∧ ∃ t r, exec (.fill8 a) s = .next t ∧
      r.toNat = (x.toNat % 2 ^ 8) * 0x01010101 ∧ WritesRegister s t regR0 r) ∧
    (Encodes (0b01111110011#11 ++ a) (.fill16 a) ∧ ∃ t r, exec (.fill16 a) s = .next t ∧
      r.toNat = (x.toNat % 2 ^ 16) * 0x00010001 ∧ WritesRegister s t regR0 r)

/-- PFX (42_move_extract.md R220) loads K and sets PFXF; after another PFX it is refused (R224). -/
def Obligations.PrefixLoadsK : Prop :=
  ∀ (s : State) (imm : BitVec 11), s.ds = none →
    Encodes (0b10011#5 ++ imm) (.pfx imm) ∧
    (s.pfxf = false → ∃ t, exec (.pfx imm) s = .next t ∧ t.k = imm ∧ t.pfxf = true ∧
      AddressIs t.pc (s.pc.toNat + 2) ∧ t.ds = none ∧ Untouched s t) ∧
    (s.pfxf = true → exec (.pfx imm) s = .refused .consecutivePrefix)

/-- An instruction whose operation does not mention K runs the same after a PFX as without one (30_encoding.md R132 and
42_move_extract.md R225, which the spec derives), and but for AND, ANDN, OR and XOR a prefix of 0 is no prefix
(10_state.md R47, derived). -/
def Obligations.UnusedPrefixHasNoEffect : Prop :=
  ∀ (i : Instr) (s : State) (k : BitVec 11) (p : Bool),
    (i.usesPrefix = false → exec i { s with k := k, pfxf := p } = exec i s) ∧
    (i.readsPrefixFlag = false → (∀ imm, i ≠ .pfx imm) → s.k = 0#11 → exec i { s with pfxf := p } = exec i s)

/-- The addresses the loads and stores form (20_memory.md R82, R91; 43_load_store.md R232 to R243): base plus offset, modulo
2^32 (the spec's decision D5, log entry 14), then aligned to a word; the lane of a partial store is added. -/
def Obligations.DataAddresses : Prop :=
  ∀ base : Word,
    (∀ k : BitVec 11, ((baseAddr k base).toNat : Int) = (base.toNat + 4 * k.toInt) % 2 ^ 32 / 4 * 4 ∧
      (byteLaneAddr (baseAddr k base) (byteLane base) : Int) = (base.toNat + 4 * k.toInt) % 2 ^ 32 ∧
      (halfLaneAddr (baseAddr k base) (halfLane base) : Int) = (base.toNat + 4 * k.toInt) % 2 ^ 32 / 2 * 2) ∧
    (∀ (k : BitVec 11) (imm : BitVec 5),
      ((pointerAddr true k imm base).toNat : Int) = (base.toNat + 4 * (k ++ imm).toInt) % 2 ^ 32 / 4 * 4 ∧
      (pointerAddr false k imm base).toNat = (base.toNat + 4 * imm.toNat) % 2 ^ 32 / 4 * 4) ∧
    (∀ imm : BitVec 8, (stackAddr imm base).toNat = (base.toNat + 4 * imm.toNat) % 2 ^ 32 / 4 * 4) ∧
    (∀ imm : BitVec 10, (stackByteAddr imm base).toNat = (base.toNat + imm.toNat) % 2 ^ 32 / 4 * 4) ∧
    (∀ imm : BitVec 9, (stackHalfAddr imm base).toNat = (base.toNat + 2 * imm.toNat) % 2 ^ 32 / 4 * 4) ∧
    (∀ n : BitVec 2, byteLaneAddr base n = base.toNat + n.toNat) ∧
    (∀ n : BitVec 1, halfLaneAddr base n = base.toNat + 2 * n.toNat)

/-- LD, LDP and LDS (43_load_store.md R232, R234, R236): the little-endian word at the address `DataAddresses` gives (its sum
modulo 2^32 is the spec's decision D5, log entry 14), where the memory map backs it (20_memory.md R93, decision
D19). -/
def Obligations.LoadsReadAlignedWord : Prop :=
  ∀ (s : State) (a : RegIdx), InFile s s.status.cwp a →
    (∀ (b : RegIdx) (base : Word), s.reg? b = some base →
      bytesBacked s.cfg (baseAddr s.k base).toNat 4 = true →
      ∃ t v, exec (.ld a b) s = .next t ∧ WordAt s.mem (baseAddr s.k base).toNat v ∧ WritesRegister s t a v) ∧
    (∀ (p : BitVec 2) (imm : BitVec 5) (base : Word), s.reg? (BitVec.ofNat 5 (16 + p.toNat)) = some base →
      bytesBacked s.cfg (pointerAddr s.pfxf s.k imm base).toNat 4 = true →
      ∃ t v, exec (.ldp p imm a) s = .next t ∧ WordAt s.mem (pointerAddr s.pfxf s.k imm base).toNat v ∧
        WritesRegister s t a v) ∧
    (∀ (imm : BitVec 8) (base : Word), s.reg? regSp = some base →
      bytesBacked s.cfg (stackAddr imm base).toNat 4 = true →
      ∃ t v, exec (.lds imm a) s = .next t ∧ WordAt s.mem (stackAddr imm base).toNat v ∧ WritesRegister s t a v)

/-- ST, STP and STS (43_load_store.md R233, R235, R237): the four bytes at the address `DataAddresses` gives (decision D5, log
entry 14), where the memory map backs them (decision D19). -/
def Obligations.WordStoresWriteAlignedWord : Prop :=
  ∀ (s : State) (a : RegIdx) (v : Word), Memory.wf s.mem = true → s.reg? a = some v →
    (∀ (b : RegIdx) (base : Word), s.reg? b = some base →
      bytesBacked s.cfg (baseAddr s.k base).toNat 4 = true →
      ∃ t, exec (.st a b) s = .next t ∧ WordAt t.mem (baseAddr s.k base).toNat v ∧
        StoresOnly s t (baseAddr s.k base).toNat 4) ∧
    (∀ (p : BitVec 2) (imm : BitVec 5) (base : Word), s.reg? (BitVec.ofNat 5 (16 + p.toNat)) = some base →
      bytesBacked s.cfg (pointerAddr s.pfxf s.k imm base).toNat 4 = true →
      ∃ t, exec (.stp p imm a) s = .next t ∧ WordAt t.mem (pointerAddr s.pfxf s.k imm base).toNat v ∧
        StoresOnly s t (pointerAddr s.pfxf s.k imm base).toNat 4) ∧
    (∀ (imm : BitVec 8) (base : Word), s.reg? regSp = some base →
      bytesBacked s.cfg (stackAddr imm base).toNat 4 = true →
      ∃ t, exec (.sts imm a) s = .next t ∧ WordAt t.mem (stackAddr imm base).toNat v ∧
        StoresOnly s t (stackAddr imm base).toNat 4)

/-- ST8d, ST8s and STS8s (43_load_store.md R238, R239, R242): byte n of %r0 goes to byte n of the word at the address
`DataAddresses` gives (decision D5, log entry 14), n from the address register, IMM2, or IMM10[1:0]. -/
def Obligations.ByteStoresWriteOneLane : Prop :=
  ∀ (s : State) (v : Word), Memory.wf s.mem = true → s.reg? regR0 = some v →
    (∀ (a : RegIdx) (base : Word) (addr : Nat), s.reg? a = some base →
      addr = byteLaneAddr (baseAddr s.k base) (byteLane base) → bytesBacked s.cfg addr 1 = true →
      ∃ t, exec (.st8d a) s = .next t ∧ Memory.read t.mem addr = v.extractLsb' (8 * (base.toNat % 4)) 8 ∧
        StoresOnly s t addr 1) ∧
    (∀ (a : RegIdx) (imm : BitVec 2) (base : Word) (addr : Nat), s.reg? a = some base →
      addr = byteLaneAddr (baseAddr s.k base) imm → bytesBacked s.cfg addr 1 = true →
      ∃ t, exec (.st8s a imm) s = .next t ∧ Memory.read t.mem addr = v.extractLsb' (8 * imm.toNat) 8 ∧
        StoresOnly s t addr 1) ∧
    (∀ (imm : BitVec 10) (base : Word) (addr : Nat), s.reg? regSp = some base →
      addr = byteLaneAddr (stackByteAddr imm base) (imm.extractLsb' 0 2) → bytesBacked s.cfg addr 1 = true →
      ∃ t, exec (.sts8s imm) s = .next t ∧ Memory.read t.mem addr = v.extractLsb' (8 * (imm.toNat % 4)) 8 ∧
        StoresOnly s t addr 1)

/-- ST16d, ST16s and STS16s (43_load_store.md R240, R241, R243): half-word n of %r0 goes to half-word n of the word at the
address `DataAddresses` gives (decision D5, log entry 14), n from bit 1 of the address register, IMM1, or IMM9[0]. -/
def Obligations.HalfStoresWriteOneLane : Prop :=
  ∀ (s : State) (v : Word), Memory.wf s.mem = true → s.reg? regR0 = some v →
    (∀ (a : RegIdx) (base : Word) (addr : Nat), s.reg? a = some base →
      addr = halfLaneAddr (baseAddr s.k base) (halfLane base) → bytesBacked s.cfg addr 2 = true →
      ∃ t, exec (.st16d a) s = .next t ∧ HalfAt t.mem addr (v.extractLsb' (16 * (base.toNat / 2 % 2)) 16) ∧
        StoresOnly s t addr 2) ∧
    (∀ (a : RegIdx) (imm : BitVec 1) (base : Word) (addr : Nat), s.reg? a = some base →
      addr = halfLaneAddr (baseAddr s.k base) imm → bytesBacked s.cfg addr 2 = true →
      ∃ t, exec (.st16s a imm) s = .next t ∧ HalfAt t.mem addr (v.extractLsb' (16 * imm.toNat) 16) ∧
        StoresOnly s t addr 2) ∧
    (∀ (imm : BitVec 9) (base : Word) (addr : Nat), s.reg? regSp = some base →
      addr = halfLaneAddr (stackHalfAddr imm base) (imm.extractLsb' 0 1) → bytesBacked s.cfg addr 2 = true →
      ∃ t, exec (.sts16s imm) s = .next t ∧ HalfAt t.mem addr (v.extractLsb' (16 * (imm.toNat % 2)) 16) ∧
        StoresOnly s t addr 2)

/-- BR and BSR (44_control_flow.md R263, R264): the delay slot runs next, then the target; BSR leaves its return address in
%o7. `AddressIs` keeps the statement off the wrap at 2^33. -/
def Obligations.BranchesAreDelayed : Prop :=
  ∀ (s : State) (imm : BitVec 11), s.ds = none →
    (Encodes (0b10000#5 ++ imm) (.br imm) ∧
      ∃ t target, exec (.br imm) s = .next t ∧ AddressIs t.pc (s.pc.toNat + 2) ∧ t.ds = some target ∧
        AddressIs target (s.pc.toNat + 2 * (imm.toInt + 1)) ∧ Untouched s t) ∧
    (InFile s s.status.cwp regO7 → Encodes (0b10001#5 ++ imm) (.bsr imm) ∧
      ∃ t target link, exec (.bsr imm) s = .next t ∧ AddressIs t.pc (s.pc.toNat + 2) ∧ t.ds = some target ∧
        AddressIs target (s.pc.toNat + 2 * (imm.toInt + 1)) ∧ link.toNat = (s.pc.toNat + 4) / 2 % 2 ^ 32 ∧
        WritesRegister s t regO7 link)

/-- JMP and CALL (44_control_flow.md R265, R266): the target is twice the register as it was before; CALL leaves its return
address in %o7, A = 15 included. -/
def Obligations.JumpsAreDelayed : Prop :=
  ∀ (s : State) (a : RegIdx) (x : Word), s.ds = none → s.reg? a = some x →
    (Encodes (0b01111111110#11 ++ a) (.jmp a) ∧
      ∃ t target, exec (.jmp a) s = .next t ∧ AddressIs t.pc (s.pc.toNat + 2) ∧ t.ds = some target ∧
        target.toNat = 2 * x.toNat ∧ Untouched s t) ∧
    (InFile s s.status.cwp regO7 → Encodes (0b01111111111#11 ++ a) (.call a) ∧
      ∃ t target link, exec (.call a) s = .next t ∧ AddressIs t.pc (s.pc.toNat + 2) ∧ t.ds = some target ∧
        target.toNat = 2 * x.toNat ∧ link.toNat = (s.pc.toNat + 4) / 2 % 2 ^ 32 ∧ WritesRegister s t regO7 link)

/-- SKP0, SKP1, SKPRz and SKPRnz (44_control_flow.md R271 to R274), by the mechanism of R270. The half-word after a taken skip
must be fetchable (20_memory.md R93, R98). -/
def Obligations.SkipsOnRegister : Prop :=
  ∀ (s : State) (a : RegIdx) (x : Word), s.ds = none → s.reg? a = some x →
    (∀ imm : BitVec 5, Encodes (0b010100#6 ++ imm ++ a) (.skp0 a imm) ∧
      ((x.getLsbD imm.toNat = false → NextFetchable s) →
        ∃ t, exec (.skp0 a imm) s = .next t ∧ SkipEnds s t (x.getLsbD imm.toNat = false))) ∧
    (∀ imm : BitVec 5, Encodes (0b010101#6 ++ imm ++ a) (.skp1 a imm) ∧
      ((x.getLsbD imm.toNat = true → NextFetchable s) →
        ∃ t, exec (.skp1 a imm) s = .next t ∧ SkipEnds s t (x.getLsbD imm.toNat = true))) ∧
    (Encodes (0b01111110110#11 ++ a) (.skprz a) ∧
      ((x.toNat = 0 → NextFetchable s) →
        ∃ t, exec (.skprz a) s = .next t ∧ SkipEnds s t (x.toNat = 0))) ∧
    (Encodes (0b01111111010#11 ++ a) (.skprnz a) ∧
      ((x.toNat ≠ 0 → NextFetchable s) →
        ∃ t, exec (.skprnz a) s = .next t ∧ SkipEnds s t (x.toNat ≠ 0)))

/-- SKPS (44_control_flow.md R275): the fourteen conditions, and the two codes that have none, which are refused. -/
def Obligations.SkipsOnCondition : Prop :=
  ∀ (s : State) (cond : BitVec 4) (n v z c : Bool), s.ds = none →
    s.status.flags = { n := n, v := v, z := z, c := c } →
    Encodes (0b011111101110#12 ++ cond) (.skps cond) ∧
    (∀ test : Prop,
      (cond = 0x0#4 ∧ (test ↔ c = true)) ∨ (cond = 0x1#4 ∧ (test ↔ c = false)) ∨
      (cond = 0x2#4 ∧ (test ↔ z = true)) ∨ (cond = 0x3#4 ∧ (test ↔ z = false)) ∨
      (cond = 0x4#4 ∧ (test ↔ n = true)) ∨ (cond = 0x5#4 ∧ (test ↔ n = false)) ∨
      (cond = 0x6#4 ∧ (test ↔ n = v)) ∨ (cond = 0x7#4 ∧ (test ↔ n ≠ v)) ∨
      (cond = 0x8#4 ∧ (test ↔ z = true ∨ n ≠ v)) ∨ (cond = 0x9#4 ∧ (test ↔ z = false ∧ n = v)) ∨
      (cond = 0xA#4 ∧ (test ↔ v = true)) ∨ (cond = 0xB#4 ∧ (test ↔ v = false)) ∨
      (cond = 0xC#4 ∧ (test ↔ c = true ∨ z = true)) ∨ (cond = 0xD#4 ∧ (test ↔ c = false ∧ z = false)) →
      (test → NextFetchable s) → ∃ t, exec (.skps cond) s = .next t ∧ SkipEnds s t test) ∧
    (cond = 0xE#4 ∨ cond = 0xF#4 → exec (.skps cond) s = .refused .unassignedCondition)

/-- What the conditions mean after a comparison of x with y (the last column of 44_control_flow.md R275, which the spec
derives from 40_arithmetic.md R152). -/
def Obligations.ConditionsAfterCompare : Prop :=
  ∀ (s t : State) (a b : RegIdx) (x y : Word), s.reg? a = some x → s.reg? b = some y →
    exec (.cmp a b) s = .next t →
    conditionHolds 0x0#4 t.status.flags = some (decide (x.toNat < y.toNat)) ∧
    conditionHolds 0x1#4 t.status.flags = some (decide (y.toNat ≤ x.toNat)) ∧
    conditionHolds 0x2#4 t.status.flags = some (decide (x = y)) ∧
    conditionHolds 0x3#4 t.status.flags = some (decide (x ≠ y)) ∧
    conditionHolds 0x6#4 t.status.flags = some (decide (y.toInt ≤ x.toInt)) ∧
    conditionHolds 0x7#4 t.status.flags = some (decide (x.toInt < y.toInt)) ∧
    conditionHolds 0x8#4 t.status.flags = some (decide (x.toInt ≤ y.toInt)) ∧
    conditionHolds 0x9#4 t.status.flags = some (decide (y.toInt < x.toInt)) ∧
    conditionHolds 0xC#4 t.status.flags = some (decide (x.toNat ≤ y.toNat)) ∧
    conditionHolds 0xD#4 t.status.flags = some (decide (y.toNat < x.toNat))

/-- SAVE (45_system.md R291, R292): CWP down by one (modulo 32, decision D7), %sp of the new window is its %fp minus 4 * IMM8;
at LO_LIMIT with IE = 1 and IPRI > 1 it then takes exception 1 in that window, without a second decrement. The return
location is pc + 2, modulo 2^33 (decision D4, log entry 13), and in a delay slot the branch target (10_state.md R51,
derived, decision D21). K, PFXF and DS are clear at entry (decision D26, log entry 28). -/
def Obligations.SaveOpensWindow : Prop :=
  ∀ (s : State) (imm : BitVec 8) (fp : Word), (s.setCwp (s.status.cwp - 1#5)).reg? regFp = some fp →
    (¬(s.status.cwp = s.wvalid.lo ∧ s.status.ie = true ∧ 1 < s.status.ipri.toNat) →
      ∃ t sp, exec (.save imm) s = .next t ∧ (sp.toNat : Int) = ((fp.toNat : Int) - 4 * imm.toNat) % 2 ^ 32 ∧
        t.status = { s.status with cwp := s.status.cwp - 1#5 } ∧ t.reg? regSp = some sp ∧
        SameRegistersBut s t [physIndex (s.status.cwp - 1#5) regSp] ∧
        t.istatus = s.istatus ∧ t.wvalid = s.wvalid ∧ t.cfg = s.cfg ∧ SameMemory s t) ∧
    (s.status.cwp = s.wvalid.lo → s.status.ie = true → 1 < s.status.ipri.toNat → VectorBacked s 1#6 →
      ∃ t sp, exec (.save imm) s = .next t ∧ (sp.toNat : Int) = ((fp.toNat : Int) - 4 * imm.toNat) % 2 ^ 32 ∧
        ExceptionEntered s t { s.status with cwp := s.status.cwp - 1#5 } (s.status.cwp - 1#5) 1#6
          (s.ds.getD (s.pc + 2#33)) ∧
        t.reg? regSp = some sp ∧
        SameRegistersBut s t [physIndex (s.status.cwp - 1#5) regSp, physIndex (s.status.cwp - 1#5) regO7])

/-- RESTORE (45_system.md R293): CWP up by one (modulo 32, decision D7), no register written; at HI_LIMIT with IE = 1 and
IPRI > 2 (the IPRI condition is the spec's inference, log entry 37) it then takes exception 2, whose decrement
brings CWP back. The return location is pc + 2, modulo 2^33 (decision D4, log entry 13), and in a delay slot the branch
target (10_state.md R51, derived, D21). K, PFXF and DS are clear at entry (decision D26, log entry 28). The handler
must have a window (60_exceptions.md R340). -/
def Obligations.RestoreClosesWindow : Prop :=
  ∀ s : State,
    (¬(s.status.cwp = s.wvalid.hi ∧ s.status.ie = true ∧ 2 < s.status.ipri.toNat) →
      ∃ t, exec .restore s = .next t ∧ t.status = { s.status with cwp := s.status.cwp + 1#5 } ∧
        t.regs = s.regs ∧ t.istatus = s.istatus ∧ t.wvalid = s.wvalid ∧ t.cfg = s.cfg ∧ SameMemory s t) ∧
    (s.status.cwp = s.wvalid.hi → s.status.ie = true → 2 < s.status.ipri.toNat →
      HandlerWindow s (s.status.cwp + 1#5) → VectorBacked s 2#6 →
      ∃ t, exec .restore s = .next t ∧
        ExceptionEntered s t { s.status with cwp := s.status.cwp + 1#5 } s.status.cwp 2#6
          (s.ds.getD (s.pc + 2#33)) ∧
        SameRegistersBut s t [physIndex s.status.cwp regO7])

/-- TRAP (45_system.md R294; the sequence of 60_exceptions.md R336): always processed, whatever IE and IPRI are. -/
def Obligations.TrapEntersHandler : Prop :=
  ∀ (s : State) (n : BitVec 6), s.ds = none → HandlerWindow s s.status.cwp → VectorBacked s n →
    Encodes (0b0111100100#10 ++ n) (.trap n) ∧
    ∃ t ret, exec (.trap n) s = .next t ∧ AddressIs ret (s.pc.toNat + 2) ∧
      ExceptionEntered s t s.status (s.status.cwp - 1#5) n ret ∧
      SameRegistersBut s t [physIndex (s.status.cwp - 1#5) regO7]

/-- TRET (45_system.md R296): STATUS from ISTATUS whole, pc twice the register read in the handler's window, no delay slot. -/
def Obligations.TrapReturnRestoresStatus : Prop :=
  ∀ (s : State) (a : RegIdx) (x : Word), s.ds = none → s.reg? a = some x →
    Encodes (0b01111101110#11 ++ a) (.tret a) ∧
    ∃ t, exec (.tret a) s = .next t ∧ t.status = s.istatus ∧ t.pc.toNat = 2 * x.toNat ∧ t.ds = none ∧
      t.regs = s.regs ∧ t.istatus = s.istatus ∧ t.wvalid = s.wvalid ∧ t.cfg = s.cfg ∧ SameMemory s t

/-- TRAP, or an accepted interrupt, followed by TRET %o7 gives back the interrupted program's STATUS, window and location, with
nothing changed but %o7 of the handler's window (60_exceptions.md R337, R342, R348, derived by the spec). The location
after the TRAP is pc + 2, modulo 2^33 (decision D4, log entry 13); K, PFXF and DS are clear (decision D26, log entry
28); the handler must have a window (R340). -/
def Obligations.ExceptionThenReturnRestores : Prop :=
  ∀ (s : State) (n : BitVec 6), s.pc.toNat % 2 = 0 → s.ds = none →
    HandlerWindow s s.status.cwp → VectorBacked s n →
    (∃ t u, exec (.trap n) s = .next t ∧ exec (.tret regO7) t = .next u ∧
      u.status = s.status ∧ u.pc = s.pc + 2#33 ∧ u.k = 0#11 ∧ u.pfxf = false ∧ u.ds = none ∧
      SameRegistersBut s u [physIndex (s.status.cwp - 1#5) regO7] ∧ u.wvalid = s.wvalid ∧ SameMemory s u) ∧
    (s.acceptsIrq = true → s.irqNow.number = n →
      ∃ t u, step s = .next t ∧ exec (.tret regO7) t = .next u ∧
        u.status = s.status ∧ u.pc = s.pc ∧ u.k = 0#11 ∧ u.pfxf = false ∧ u.ds = none ∧
        SameRegistersBut s u [physIndex (s.status.cwp - 1#5) regO7] ∧ u.wvalid = s.wvalid ∧ SameMemory s u)

/-- RDCTL (45_system.md R297), the register selected by K. Bits the spec calls `any value` are left free. -/
def Obligations.ReadControlRegister : Prop :=
  ∀ (s : State) (a : RegIdx), InFile s s.status.cwp a →
    Encodes (0b01111111001#11 ++ a) (.rdctl a) ∧
    (s.k = 0#11 → ∃ t v, exec (.rdctl a) s = .next t ∧ StatusBits s.status v ∧ WritesRegister s t a v) ∧
    (s.k = 1#11 → ∃ t v, exec (.rdctl a) s = .next t ∧ StatusBits s.istatus v ∧ WritesRegister s t a v) ∧
    (s.k = 2#11 → ∃ t v, exec (.rdctl a) s = .next t ∧ WvalidBits s.wvalid v ∧ WritesRegister s t a v) ∧
    (s.k = 8#11 ∨ s.k = 9#11 → ∃ t v, exec (.rdctl a) s = .next t ∧ WritesRegister s t a v) ∧
    ((3 ≤ s.k.toNat ∧ s.k.toNat ≤ 7) ∨ 10 ≤ s.k.toNat →
      exec (.rdctl a) s = .refused (.undefinedControlRegister s.k.toNat))

/-- WRCTL (45_system.md R298) for every register K selects; to STATUS it must be followed by a NOP (R299, the spec's decision D15,
log entry 19); WVALID is unchanged where it is read-only (decision D20); bits above the register's width are
ignored (D24); other indices are refused (D9). -/
def Obligations.WriteControlRegister : Prop :=
  ∀ (s : State) (a : RegIdx) (v : Word), s.reg? a = some v →
    (s.k = 0#11 → bytesBacked s.cfg s.next.toNat 2 = true →
      (HalfAt s.mem s.next.toNat 0x3000#16 → ∃ t, exec (.wrctl a) s = .next t ∧ StatusBits t.status v ∧
        t.regs = s.regs ∧ t.istatus = s.istatus ∧ t.wvalid = s.wvalid ∧ t.cfg = s.cfg ∧ SameMemory s t) ∧
      (¬ HalfAt s.mem s.next.toNat 0x3000#16 → exec (.wrctl a) s = .refused .statusWriteWithoutNop)) ∧
    (s.k = 1#11 → ∃ t, exec (.wrctl a) s = .next t ∧ StatusBits t.istatus v ∧
      t.regs = s.regs ∧ t.status = s.status ∧ t.wvalid = s.wvalid ∧ t.cfg = s.cfg ∧ SameMemory s t) ∧
    (s.k = 2#11 → ∃ t, exec (.wrctl a) s = .next t ∧
      (s.cfg.wvalidWritable = true → WvalidBits t.wvalid v) ∧
      (s.cfg.wvalidWritable = false → t.wvalid = s.wvalid) ∧
      t.regs = s.regs ∧ t.status = s.status ∧ t.istatus = s.istatus ∧ t.cfg = s.cfg ∧ SameMemory s t) ∧
    (∀ on : Bool, s.k = (if on then 9#11 else 8#11) → ∃ t, exec (.wrctl a) s = .next t ∧
      t.status = { s.status with ie := on } ∧
      t.regs = s.regs ∧ t.istatus = s.istatus ∧ t.wvalid = s.wvalid ∧ t.cfg = s.cfg ∧ SameMemory s t) ∧
    ((3 ≤ s.k.toNat ∧ s.k.toNat ≤ 7) ∨ 10 ≤ s.k.toNat →
      exec (.wrctl a) s = .refused (.undefinedControlRegister s.k.toNat))

/-- USR0 to USR4 are reserved and are refused, whatever the operands and the state (45_system.md R300 to R304, the spec's
decision D10): the words decode, and their meaning is the stop. -/
def Obligations.ReservedOpcodesRefused : Prop :=
  ∀ (s : State) (a b : RegIdx),
    (Encodes (0b011100#6 ++ b ++ a) (.usr0 a b) ∧ exec (.usr0 a b) s = .refused (.reservedOpcode "USR0")) ∧
    (Encodes (0b01111101001#11 ++ a) (.usr1 a) ∧ exec (.usr1 a) s = .refused (.reservedOpcode "USR1")) ∧
    (Encodes (0b01111101010#11 ++ a) (.usr2 a) ∧ exec (.usr2 a) s = .refused (.reservedOpcode "USR2")) ∧
    (Encodes (0b01111101011#11 ++ a) (.usr3 a) ∧ exec (.usr3 a) s = .refused (.reservedOpcode "USR3")) ∧
    (Encodes (0b01111101100#11 ++ a) (.usr4 a) ∧ exec (.usr4 a) s = .refused (.reservedOpcode "USR4"))

/-- Which entries have a window for their handler, and what becomes of the others (60_exceptions.md R340): a window inside
the file serves; entry at CWP = 0 makes CWP 31, whose %o7 is register 511, so it is refused on files of 128 and 256
registers and goes on with 512; entry at any other CWP whose predecessor window lies outside the file is refused.
TRAP, an accepted interrupt and the overflow exception of RESTORE alike. (The refusals rest on the spec's decisions D6
and D7, log entries 11 and 12; the overflow's IPRI condition on log entry 37.) -/
def Obligations.ExceptionEntryNeedsWindow : Prop :=
  ∀ (s : State) (n : BitVec 6), s.regs.length = s.cfg.fileSize.nreg →
    (1 ≤ s.status.cwp.toNat → s.status.cwp.toNat ≤ s.cfg.fileSize.nreg / 16 - 1 → HandlerWindow s s.status.cwp) ∧
    (s.status.cwp = 0#5 → (HandlerWindow s s.status.cwp ↔ s.cfg.fileSize = .regs512)) ∧
    (s.status.cwp = 0#5 → s.cfg.fileSize ≠ .regs512 →
      (s.ds = none → exec (.trap n) s = .refused (.outsideRegisterFile 511)) ∧
      (s.acceptsIrq = true → step s = .refused (.outsideRegisterFile 511))) ∧
    (1 ≤ s.status.cwp.toNat → s.cfg.fileSize.nreg / 16 - 1 < s.status.cwp.toNat →
      (s.ds = none → exec (.trap n) s = .refused (.handlerWindowOutsideFile (s.status.cwp - 1#5))) ∧
      (s.acceptsIrq = true → step s = .refused (.handlerWindowOutsideFile (s.status.cwp - 1#5)))) ∧
    (s.status.cwp.toNat ≠ 31 → s.cfg.fileSize.nreg / 16 - 2 < s.status.cwp.toNat → s.status.cwp = s.wvalid.hi →
      s.status.ie = true → 2 < s.status.ipri.toNat →
      exec .restore s = .refused (.handlerWindowOutsideFile s.status.cwp))
end

