-- ==== Sys2Proof/Laws/Memory.lean ====
section
/-! SUPPORT. The laws of memory: a read after a write, and every operation keeps the canonical form. -/

namespace Sys2Proof.Machine

theorem read_push (m : Memory) (a : Nat) (v : Byte) (addr : Nat) (hm : addr = a → m.read addr = unlistedByte addr) :
    (Memory.push a v m).read addr = if addr = a then v else m.read addr := by
  by_cases hv : v = unlistedByte a <;> by_cases ha : addr = a
  · subst ha; simp [Memory.push, hv, hm rfl]
  · simp [Memory.push, hv, ha]
  · simp [Memory.push, hv, ha, Memory.read]
  · simp [Memory.push, hv, ha, Memory.read]

/-- Below its first entry a canonical memory reads as unlisted. -/
theorem read_below (low : Nat) (m : Memory) (hm : Memory.wfFrom low m = true) (addr : Nat) (h : addr < low) :
    m.read addr = unlistedByte addr := by
  induction m generalizing low with
  | nil => rfl
  | cons e rest ih =>
    obtain ⟨a, v⟩ := e
    simp only [Memory.wfFrom, Bool.and_eq_true, decide_eq_true_eq] at hm
    have hne : addr ≠ a := by omega
    simp only [Memory.read, hne, if_false]
    exact ih (a + 1) hm.2 (by omega)

theorem wfFrom_mono (low low' : Nat) (m : Memory) (h : low' ≤ low) (hm : Memory.wfFrom low m = true) :
    Memory.wfFrom low' m = true := by
  cases m with
  | nil => rfl
  | cons e rest =>
    obtain ⟨a, v⟩ := e
    simp only [Memory.wfFrom, Bool.and_eq_true, decide_eq_true_eq] at hm ⊢
    exact ⟨⟨by omega, hm.1.2⟩, hm.2⟩

theorem wfFrom_push (low a : Nat) (v : Byte) (rest : Memory) (hlow : low ≤ a)
    (hm : Memory.wfFrom (a + 1) rest = true) : Memory.wfFrom low (Memory.push a v rest) = true := by
  unfold Memory.push
  split
  · exact wfFrom_mono _ _ rest (by omega) hm
  · rename_i hv
    simp [Memory.wfFrom, hlow, hm, hv]

theorem wfFrom_write (low : Nat) (m : Memory) (addr : Nat) (v : Byte) (hlow : low ≤ addr)
    (hm : Memory.wfFrom low m = true) : Memory.wfFrom low (m.write addr v) = true := by
  induction m generalizing low with
  | nil => exact wfFrom_push low addr v [] hlow rfl
  | cons e rest ih =>
    obtain ⟨a, w⟩ := e
    simp only [Memory.wfFrom, Bool.and_eq_true, decide_eq_true_eq] at hm
    simp only [Memory.write]
    split
    · refine wfFrom_push low addr v _ hlow ?_
      simp only [Memory.wfFrom, Bool.and_eq_true, decide_eq_true_eq]
      exact ⟨⟨by omega, hm.1.2⟩, hm.2⟩
    · split
      · rename_i h; subst h
        exact wfFrom_push low addr v rest hlow hm.2
      · simp only [Memory.wfFrom, Bool.and_eq_true, decide_eq_true_eq]
        exact ⟨hm.1, ih (a + 1) (by omega) hm.2⟩

/-- A write keeps the canonical form. -/
theorem wf_write (m : Memory) (addr : Nat) (v : Byte) (hm : m.wf = true) : (m.write addr v).wf = true :=
  wfFrom_write 0 m addr v (Nat.zero_le _) hm

/-- A run of writes keeps the canonical form. -/
theorem wf_writeBytes (m : Memory) (addr : Nat) (vs : List Byte) (hm : m.wf = true) :
    (m.writeBytes addr vs).wf = true := by
  induction vs generalizing m addr with
  | nil => exact hm
  | cons v vs ih => exact ih _ _ (wf_write m addr v hm)

/-- The reset memory has the canonical form. -/
theorem wf_reset : State.reset.mem.wf = true := rfl

/-- A read after a write: the byte written, and every other byte as before. -/
theorem read_write (m : Memory) (addr : Nat) (v : Byte) (hm : m.wf = true) (a : Nat) :
    (m.write addr v).read a = if a = addr then v else m.read a := by
  suffices h : ∀ low, Memory.wfFrom low m = true → (m.write addr v).read a = if a = addr then v else m.read a from
    h 0 hm
  clear hm
  induction m with
  | nil => intro low _; exact read_push [] addr v a (fun _ => rfl)
  | cons e rest ih =>
    obtain ⟨b, w⟩ := e
    intro low hl
    simp only [Memory.wfFrom, Bool.and_eq_true, decide_eq_true_eq] at hl
    simp only [Memory.write]
    split
    · refine read_push _ addr v a (fun h => ?_)
      subst h
      have hne : a ≠ b := by omega
      simp only [Memory.read, hne, if_false]
      exact read_below (b + 1) rest hl.2 a (by omega)
    · split
      · rename_i h; subst h
        rw [read_push rest addr v a (fun h => read_below (addr + 1) rest hl.2 a (by omega))]
        by_cases ha : a = addr <;> simp [ha, Memory.read]
      · rename_i h1 h2
        by_cases hab : a = b
        · subst hab
          have : a ≠ addr := fun h => h2 h.symm
          simp [Memory.read, this]
        · simp only [Memory.read, hab, if_false]
          exact ih (b + 1) hl.2

/-- Bytes outside a run of writes read as before. -/
theorem read_writeBytes_outside (m : Memory) (addr : Nat) (vs : List Byte) (hm : m.wf = true) (a : Nat)
    (h : a < addr ∨ addr + vs.length ≤ a) : (m.writeBytes addr vs).read a = m.read a := by
  induction vs generalizing m addr with
  | nil => rfl
  | cons v vs ih =>
    rw [List.length_cons] at h
    rw [Memory.writeBytes, ih _ _ (wf_write m addr v hm) (by omega), read_write m addr v hm,
      if_neg (by omega)]

/-- Byte j of a run of writes reads as the run's byte j. -/
theorem read_writeBytes_inside (m : Memory) (addr : Nat) (vs : List Byte) (hm : m.wf = true) (j : Nat)
    (h : j < vs.length) : (m.writeBytes addr vs).read (addr + j) = vs[j] := by
  induction vs generalizing m addr j with
  | nil => simp at h
  | cons v vs ih =>
    rw [Memory.writeBytes]
    cases j with
    | zero =>
      rw [read_writeBytes_outside _ _ _ (wf_write m addr v hm) _ (by omega), read_write m addr v hm]
      simp
    | succ j =>
      have := ih _ (addr + 1) (wf_write m addr v hm) j (by simpa using h)
      rw [Nat.add_assoc, Nat.add_comm 1 j] at this
      simpa using this

end Sys2Proof.Machine
end

