-- ==== Sys2Proof/Laws/State.lean ====
section
/-! SUPPORT. One lemma per field and update of the state, so that no proof unfolds a record update. -/

namespace Sys2Proof.Machine

@[simp] theorem putReg_cfg (s : State) (i : RegIdx) (v : Word) : (s.putReg i v).cfg = s.cfg := rfl
@[simp] theorem putReg_regs (s : State) (i : RegIdx) (v : Word) : (s.putReg i v).regs = s.regs.set (s.phys i) v := rfl
@[simp] theorem putReg_pc (s : State) (i : RegIdx) (v : Word) : (s.putReg i v).pc = s.pc := rfl
@[simp] theorem putReg_k (s : State) (i : RegIdx) (v : Word) : (s.putReg i v).k = s.k := rfl
@[simp] theorem putReg_status (s : State) (i : RegIdx) (v : Word) : (s.putReg i v).status = s.status := rfl
@[simp] theorem putReg_istatus (s : State) (i : RegIdx) (v : Word) : (s.putReg i v).istatus = s.istatus := rfl
@[simp] theorem putReg_wvalid (s : State) (i : RegIdx) (v : Word) : (s.putReg i v).wvalid = s.wvalid := rfl
@[simp] theorem putReg_pfxf (s : State) (i : RegIdx) (v : Word) : (s.putReg i v).pfxf = s.pfxf := rfl
@[simp] theorem putReg_ds (s : State) (i : RegIdx) (v : Word) : (s.putReg i v).ds = s.ds := rfl
@[simp] theorem putReg_mem (s : State) (i : RegIdx) (v : Word) : (s.putReg i v).mem = s.mem := rfl
@[simp] theorem putReg_stored (s : State) (i : RegIdx) (v : Word) : (s.putReg i v).stored = s.stored := rfl
@[simp] theorem putReg_irqs (s : State) (i : RegIdx) (v : Word) : (s.putReg i v).irqs = s.irqs := rfl
@[simp] theorem putReg_freeCount (s : State) (i : RegIdx) (v : Word) : (s.putReg i v).freeCount = s.freeCount := rfl

@[simp] theorem setFlags_cfg (s : State) (f : Flags) : (s.setFlags f).cfg = s.cfg := rfl
@[simp] theorem setFlags_regs (s : State) (f : Flags) : (s.setFlags f).regs = s.regs := rfl
@[simp] theorem setFlags_pc (s : State) (f : Flags) : (s.setFlags f).pc = s.pc := rfl
@[simp] theorem setFlags_k (s : State) (f : Flags) : (s.setFlags f).k = s.k := rfl
@[simp] theorem setFlags_status (s : State) (f : Flags) : (s.setFlags f).status = { s.status with flags := f } := rfl
@[simp] theorem setFlags_istatus (s : State) (f : Flags) : (s.setFlags f).istatus = s.istatus := rfl
@[simp] theorem setFlags_wvalid (s : State) (f : Flags) : (s.setFlags f).wvalid = s.wvalid := rfl
@[simp] theorem setFlags_pfxf (s : State) (f : Flags) : (s.setFlags f).pfxf = s.pfxf := rfl
@[simp] theorem setFlags_ds (s : State) (f : Flags) : (s.setFlags f).ds = s.ds := rfl
@[simp] theorem setFlags_mem (s : State) (f : Flags) : (s.setFlags f).mem = s.mem := rfl
@[simp] theorem setFlags_stored (s : State) (f : Flags) : (s.setFlags f).stored = s.stored := rfl
@[simp] theorem setFlags_irqs (s : State) (f : Flags) : (s.setFlags f).irqs = s.irqs := rfl
@[simp] theorem setFlags_freeCount (s : State) (f : Flags) : (s.setFlags f).freeCount = s.freeCount := rfl

@[simp] theorem setCwp_cfg (s : State) (c : BitVec 5) : (s.setCwp c).cfg = s.cfg := rfl
@[simp] theorem setCwp_regs (s : State) (c : BitVec 5) : (s.setCwp c).regs = s.regs := rfl
@[simp] theorem setCwp_pc (s : State) (c : BitVec 5) : (s.setCwp c).pc = s.pc := rfl
@[simp] theorem setCwp_k (s : State) (c : BitVec 5) : (s.setCwp c).k = s.k := rfl
@[simp] theorem setCwp_status (s : State) (c : BitVec 5) : (s.setCwp c).status = { s.status with cwp := c } := rfl
@[simp] theorem setCwp_istatus (s : State) (c : BitVec 5) : (s.setCwp c).istatus = s.istatus := rfl
@[simp] theorem setCwp_wvalid (s : State) (c : BitVec 5) : (s.setCwp c).wvalid = s.wvalid := rfl
@[simp] theorem setCwp_pfxf (s : State) (c : BitVec 5) : (s.setCwp c).pfxf = s.pfxf := rfl
@[simp] theorem setCwp_ds (s : State) (c : BitVec 5) : (s.setCwp c).ds = s.ds := rfl
@[simp] theorem setCwp_mem (s : State) (c : BitVec 5) : (s.setCwp c).mem = s.mem := rfl
@[simp] theorem setCwp_stored (s : State) (c : BitVec 5) : (s.setCwp c).stored = s.stored := rfl
@[simp] theorem setCwp_irqs (s : State) (c : BitVec 5) : (s.setCwp c).irqs = s.irqs := rfl
@[simp] theorem setCwp_freeCount (s : State) (c : BitVec 5) : (s.setCwp c).freeCount = s.freeCount := rfl

@[simp] theorem setIe_cfg (s : State) (b : Bool) : (s.setIe b).cfg = s.cfg := rfl
@[simp] theorem setIe_regs (s : State) (b : Bool) : (s.setIe b).regs = s.regs := rfl
@[simp] theorem setIe_pc (s : State) (b : Bool) : (s.setIe b).pc = s.pc := rfl
@[simp] theorem setIe_k (s : State) (b : Bool) : (s.setIe b).k = s.k := rfl
@[simp] theorem setIe_status (s : State) (b : Bool) : (s.setIe b).status = { s.status with ie := b } := rfl
@[simp] theorem setIe_istatus (s : State) (b : Bool) : (s.setIe b).istatus = s.istatus := rfl
@[simp] theorem setIe_wvalid (s : State) (b : Bool) : (s.setIe b).wvalid = s.wvalid := rfl
@[simp] theorem setIe_pfxf (s : State) (b : Bool) : (s.setIe b).pfxf = s.pfxf := rfl
@[simp] theorem setIe_ds (s : State) (b : Bool) : (s.setIe b).ds = s.ds := rfl
@[simp] theorem setIe_mem (s : State) (b : Bool) : (s.setIe b).mem = s.mem := rfl
@[simp] theorem setIe_stored (s : State) (b : Bool) : (s.setIe b).stored = s.stored := rfl
@[simp] theorem setIe_irqs (s : State) (b : Bool) : (s.setIe b).irqs = s.irqs := rfl
@[simp] theorem setIe_freeCount (s : State) (b : Bool) : (s.setIe b).freeCount = s.freeCount := rfl

@[simp] theorem clearPrefix_cfg (s : State) : (s.clearPrefix).cfg = s.cfg := rfl
@[simp] theorem clearPrefix_regs (s : State) : (s.clearPrefix).regs = s.regs := rfl
@[simp] theorem clearPrefix_pc (s : State) : (s.clearPrefix).pc = s.pc := rfl
@[simp] theorem clearPrefix_k (s : State) : (s.clearPrefix).k = 0#11 := rfl
@[simp] theorem clearPrefix_status (s : State) : (s.clearPrefix).status = s.status := rfl
@[simp] theorem clearPrefix_istatus (s : State) : (s.clearPrefix).istatus = s.istatus := rfl
@[simp] theorem clearPrefix_wvalid (s : State) : (s.clearPrefix).wvalid = s.wvalid := rfl
@[simp] theorem clearPrefix_pfxf (s : State) : (s.clearPrefix).pfxf = false := rfl
@[simp] theorem clearPrefix_ds (s : State) : (s.clearPrefix).ds = s.ds := rfl
@[simp] theorem clearPrefix_mem (s : State) : (s.clearPrefix).mem = s.mem := rfl
@[simp] theorem clearPrefix_stored (s : State) : (s.clearPrefix).stored = s.stored := rfl
@[simp] theorem clearPrefix_irqs (s : State) : (s.clearPrefix).irqs = s.irqs := rfl
@[simp] theorem clearPrefix_freeCount (s : State) : (s.clearPrefix).freeCount = s.freeCount := rfl

@[simp] theorem advance_cfg (s : State) : (s.advance).cfg = s.cfg := rfl
@[simp] theorem advance_regs (s : State) : (s.advance).regs = s.regs := rfl
@[simp] theorem advance_pc (s : State) : (s.advance).pc = s.next := rfl
@[simp] theorem advance_k (s : State) : (s.advance).k = 0#11 := rfl
@[simp] theorem advance_status (s : State) : (s.advance).status = s.status := rfl
@[simp] theorem advance_istatus (s : State) : (s.advance).istatus = s.istatus := rfl
@[simp] theorem advance_wvalid (s : State) : (s.advance).wvalid = s.wvalid := rfl
@[simp] theorem advance_pfxf (s : State) : (s.advance).pfxf = false := rfl
@[simp] theorem advance_ds (s : State) : (s.advance).ds = none := rfl
@[simp] theorem advance_mem (s : State) : (s.advance).mem = s.mem := rfl
@[simp] theorem advance_stored (s : State) : (s.advance).stored = if s.ds.isSome then [] else s.stored := rfl
@[simp] theorem advance_irqs (s : State) : (s.advance).irqs = s.irqs := rfl
@[simp] theorem advance_freeCount (s : State) : (s.advance).freeCount = s.freeCount := rfl

@[simp] theorem tick_cfg (s : State) : (s.tick).cfg = s.cfg := rfl
@[simp] theorem tick_regs (s : State) : (s.tick).regs = s.regs := rfl
@[simp] theorem tick_pc (s : State) : (s.tick).pc = s.pc := rfl
@[simp] theorem tick_k (s : State) : (s.tick).k = s.k := rfl
@[simp] theorem tick_status (s : State) : (s.tick).status = s.status := rfl
@[simp] theorem tick_istatus (s : State) : (s.tick).istatus = s.istatus := rfl
@[simp] theorem tick_wvalid (s : State) : (s.tick).wvalid = s.wvalid := rfl
@[simp] theorem tick_pfxf (s : State) : (s.tick).pfxf = s.pfxf := rfl
@[simp] theorem tick_ds (s : State) : (s.tick).ds = s.ds := rfl
@[simp] theorem tick_mem (s : State) : (s.tick).mem = s.mem := rfl
@[simp] theorem tick_stored (s : State) : (s.tick).stored = s.stored := rfl
@[simp] theorem tick_irqs (s : State) : (s.tick).irqs = s.irqs.tail := rfl
@[simp] theorem tick_freeCount (s : State) : (s.tick).freeCount = s.freeCount := rfl

@[simp] theorem exceptionStatus_cfg (s : State) (n : BitVec 6) (u : Bool) : (s.exceptionStatus n u).cfg = s.cfg := rfl
@[simp] theorem exceptionStatus_regs (s : State) (n : BitVec 6) (u : Bool) : (s.exceptionStatus n u).regs = s.regs := rfl
@[simp] theorem exceptionStatus_pc (s : State) (n : BitVec 6) (u : Bool) : (s.exceptionStatus n u).pc = s.pc := rfl
@[simp] theorem exceptionStatus_k (s : State) (n : BitVec 6) (u : Bool) : (s.exceptionStatus n u).k = s.k := rfl
@[simp] theorem exceptionStatus_status (s : State) (n : BitVec 6) (u : Bool) : (s.exceptionStatus n u).status = { s.status with cwp := if u then s.status.cwp else s.status.cwp - 1#5, ie := false, ipri := n } := rfl
@[simp] theorem exceptionStatus_istatus (s : State) (n : BitVec 6) (u : Bool) : (s.exceptionStatus n u).istatus = s.status := rfl
@[simp] theorem exceptionStatus_wvalid (s : State) (n : BitVec 6) (u : Bool) : (s.exceptionStatus n u).wvalid = s.wvalid := rfl
@[simp] theorem exceptionStatus_pfxf (s : State) (n : BitVec 6) (u : Bool) : (s.exceptionStatus n u).pfxf = s.pfxf := rfl
@[simp] theorem exceptionStatus_ds (s : State) (n : BitVec 6) (u : Bool) : (s.exceptionStatus n u).ds = s.ds := rfl
@[simp] theorem exceptionStatus_mem (s : State) (n : BitVec 6) (u : Bool) : (s.exceptionStatus n u).mem = s.mem := rfl
@[simp] theorem exceptionStatus_stored (s : State) (n : BitVec 6) (u : Bool) : (s.exceptionStatus n u).stored = s.stored := rfl
@[simp] theorem exceptionStatus_irqs (s : State) (n : BitVec 6) (u : Bool) : (s.exceptionStatus n u).irqs = s.irqs := rfl
@[simp] theorem exceptionStatus_freeCount (s : State) (n : BitVec 6) (u : Bool) : (s.exceptionStatus n u).freeCount = s.freeCount := rfl

@[simp] theorem putReg_phys (s : State) (i j : RegIdx) (v : Word) : (s.putReg i v).phys j = s.phys j := rfl
@[simp] theorem setFlags_phys (s : State) (f : Flags) (i : RegIdx) : (s.setFlags f).phys i = s.phys i := rfl
@[simp] theorem setIe_phys (s : State) (b : Bool) (i : RegIdx) : (s.setIe b).phys i = s.phys i := rfl
@[simp] theorem setCwp_phys (s : State) (c : BitVec 5) (i : RegIdx) : (s.setCwp c).phys i = physIndex c i := rfl
@[simp] theorem clearPrefix_phys (s : State) (i : RegIdx) : s.clearPrefix.phys i = s.phys i := rfl
@[simp] theorem advance_phys (s : State) (i : RegIdx) : s.advance.phys i = s.phys i := rfl
@[simp] theorem tick_phys (s : State) (i : RegIdx) : s.tick.phys i = s.phys i := rfl
@[simp] theorem setFlags_reg? (s : State) (f : Flags) (i : RegIdx) : (s.setFlags f).reg? i = s.reg? i := rfl
@[simp] theorem setIe_reg? (s : State) (b : Bool) (i : RegIdx) : (s.setIe b).reg? i = s.reg? i := rfl
@[simp] theorem clearPrefix_reg? (s : State) (i : RegIdx) : s.clearPrefix.reg? i = s.reg? i := rfl
@[simp] theorem advance_reg? (s : State) (i : RegIdx) : s.advance.reg? i = s.reg? i := rfl
@[simp] theorem tick_reg? (s : State) (i : RegIdx) : s.tick.reg? i = s.reg? i := rfl
@[simp] theorem putReg_next (s : State) (i : RegIdx) (v : Word) : (s.putReg i v).next = s.next := rfl
@[simp] theorem setFlags_next (s : State) (f : Flags) : (s.setFlags f).next = s.next := rfl
@[simp] theorem setCwp_next (s : State) (c : BitVec 5) : (s.setCwp c).next = s.next := rfl

/-- `next` is the pending branch target, or `pc + 2` (10_state.md R51). -/
theorem next_eq (s : State) : s.next = s.ds.getD (s.pc + 2#33) := by
  unfold State.next
  cases s.ds <;> rfl

/-- A register that can be read lies inside the file. -/
theorem reg?_isSome {s : State} {i : RegIdx} {x : Word} (h : s.reg? i = some x) : s.phys i < s.regs.length :=
  (List.getElem?_eq_some_iff.mp h).1

/-- A register inside the file can be read. -/
theorem reg?_of_lt {s : State} {i : RegIdx} (h : s.phys i < s.regs.length) : ∃ x, s.reg? i = some x :=
  ⟨s.regs[s.phys i], List.getElem?_eq_getElem h⟩

/-- A register reads back what was written to it (10_state.md R39). -/
theorem putReg_reg?_self {s : State} {i : RegIdx} {v : Word} (h : s.phys i < s.regs.length) :
    (s.putReg i v).reg? i = some v := by
  simp [State.reg?, h]

/-- A write leaves every other physical register alone. -/
theorem putReg_regs_ne {s : State} {i : RegIdx} {v : Word} {p : Nat} (h : p ≠ s.phys i) :
    (s.putReg i v).regs[p]? = s.regs[p]? := by
  simp [Ne.symm h]

end Sys2Proof.Machine
end

