-- ==== Sys2Proof/Laws/Ops.lean ====
section
/-! SUPPORT. For each shared operation of Machine/Ops.lean, once, everything it can do: if it answers a next
state, then what held and which state that is; and, where an instruction completes, the equation to rewrite
with. -/

namespace Sys2Proof.Machine

/-! ### Registers -/

theorem readReg_eq {s : State} {i : RegIdx} {x : Word} (h : s.reg? i = some x) (rest : Word → Out) :
    readReg s i rest = rest x := by simp [readReg, h]

theorem readReg_next {s t : State} {i : RegIdx} {rest : Word → Out} (h : readReg s i rest = .next t) :
    ∃ x, s.reg? i = some x ∧ rest x = .next t := by
  unfold readReg at h
  split at h
  · exact ⟨_, ‹_›, h⟩
  · cases h

theorem writeReg_eq {s : State} {i : RegIdx} (h : s.phys i < s.regs.length) (v : Word) (rest : State → Out) :
    writeReg s i v rest = rest (s.putReg i v) := by simp [writeReg, h]

theorem writeReg_next {s t : State} {i : RegIdx} {v : Word} {rest : State → Out}
    (h : writeReg s i v rest = .next t) : s.phys i < s.regs.length ∧ rest (s.putReg i v) = .next t := by
  unfold writeReg at h
  split at h
  · exact ⟨‹_›, h⟩
  · cases h

/-! ### Memory -/

theorem loadWord_eq {s : State} {addr : Nat} (h : bytesBacked s.cfg addr 4 = true) (rest : Word → Out) :
    loadWord s addr rest = rest (Memory.readWord s.mem addr) := by simp [loadWord, h]

theorem loadWord_next {s t : State} {addr : Nat} {rest : Word → Out} (h : loadWord s addr rest = .next t) :
    bytesBacked s.cfg addr 4 = true ∧ rest (Memory.readWord s.mem addr) = .next t := by
  unfold loadWord at h
  split at h
  · exact ⟨‹_›, h⟩
  · cases h

theorem loadHalf_eq {s : State} {addr : Nat} (h : bytesBacked s.cfg addr 2 = true) (rest : Half → Out) :
    loadHalf s addr rest = rest (Memory.readHalf s.mem addr) := by simp [loadHalf, h]

theorem loadHalf_next {s t : State} {addr : Nat} {rest : Half → Out} (h : loadHalf s addr rest = .next t) :
    bytesBacked s.cfg addr 2 = true ∧ rest (Memory.readHalf s.mem addr) = .next t := by
  unfold loadHalf at h
  split at h
  · exact ⟨‹_›, h⟩
  · cases h

theorem fetchHalf_eq {s : State} {addr : Nat} (h : bytesBacked s.cfg addr 2 = true) (hs : s.stale addr = false)
    (rest : Half → Out) : fetchHalf s addr rest = rest (Memory.readHalf s.mem addr) := by
  simp [fetchHalf, loadHalf_eq h, hs]

theorem fetchHalf_next {s t : State} {addr : Nat} {rest : Half → Out} (h : fetchHalf s addr rest = .next t) :
    bytesBacked s.cfg addr 2 = true ∧ s.stale addr = false ∧ rest (Memory.readHalf s.mem addr) = .next t := by
  obtain ⟨hb, h⟩ := loadHalf_next h
  split at h
  · cases h
  · exact ⟨hb, Bool.eq_false_of_not_eq_true ‹¬ _›, h⟩

/-! ### Ends -/

theorem finish_next {s t : State} (h : finish s = .next t) : t = s.advance := by
  unfold finish at h; cases h; rfl

theorem storeAndFinish_eq {s : State} {addr : Nat} {vs : List Byte}
    (h : bytesBacked s.cfg addr vs.length = true) :
    storeAndFinish s addr vs = .next
      { State.advance { s with mem := Memory.writeBytes s.mem addr vs } with
        stored := insertAddrs addr vs.length (if s.ds.isSome then [] else s.stored) } := by
  simp [storeAndFinish, h]

theorem storeAndFinish_next {s t : State} {addr : Nat} {vs : List Byte} (h : storeAndFinish s addr vs = .next t) :
    bytesBacked s.cfg addr vs.length = true ∧
      t = { State.advance { s with mem := Memory.writeBytes s.mem addr vs } with
            stored := insertAddrs addr vs.length (if s.ds.isSome then [] else s.stored) } := by
  have hb : bytesBacked s.cfg addr vs.length = true := by
    unfold storeAndFinish at h
    split at h
    · assumption
    · cases h
  rw [storeAndFinish_eq hb] at h
  cases h
  exact ⟨hb, rfl⟩

theorem outsideDelaySlot_eq {s : State} (h : s.ds = none) (rest : Out) : outsideDelaySlot s rest = rest := by
  simp [outsideDelaySlot, h]

theorem outsideDelaySlot_next {s t : State} {rest : Out} (h : outsideDelaySlot s rest = .next t) :
    s.ds = none ∧ rest = .next t := by
  unfold outsideDelaySlot at h
  split at h
  · cases h
  · rename_i hd
    cases hs : s.ds with
    | none => exact ⟨rfl, h⟩
    | some d => simp [hs] at hd

theorem delayedTo_next {s t : State} {target : Addr} (h : delayedTo s target = .next t) :
    t = { s.clearPrefix with pc := s.pc + 2#33, ds := some target } := by
  unfold delayedTo at h; cases h; rfl

/-- A skip ends sequentially where the test fails, and past the next instruction, or PFX pair, where it holds. -/
theorem skipIf_next {s t : State} {test : Bool} (h : skipIf s test = .next t) :
    (test = false ∧ t = s.advance) ∨
      (test = true ∧ bytesBacked s.cfg (s.pc + 2#33).toNat 2 = true ∧ s.stale (s.pc + 2#33).toNat = false ∧
        t = { s.clearPrefix with
              pc := s.pc + (if isPfxWord (Memory.readHalf s.mem (s.pc + 2#33).toNat) then 6#33 else 4#33) }) := by
  unfold skipIf at h
  split at h
  · obtain ⟨hb, hs, h⟩ := fetchHalf_next h
    cases h
    exact .inr ⟨‹_›, hb, hs, rfl⟩
  · exact .inl ⟨Bool.eq_false_of_not_eq_true ‹¬ _›, finish_next h⟩

theorem skipIf_true {s : State} (hb : bytesBacked s.cfg (s.pc + 2#33).toNat 2 = true)
    (hs : s.stale (s.pc + 2#33).toNat = false) :
    skipIf s true = .next { s.clearPrefix with
      pc := s.pc + (if isPfxWord (Memory.readHalf s.mem (s.pc + 2#33).toNat) then 6#33 else 4#33) } := by
  unfold skipIf
  rw [if_pos rfl, fetchHalf_eq hb hs]

/-! ### Exceptions -/

/-- The condition of R340 in words. -/
theorem hasHandlerWindow_iff {s : State} {u : Bool} : s.hasHandlerWindow u = true ↔
    u = true ∨ s.status.cwp = 0#5 ∨ physIndex (s.status.cwp - 1#5) regI7 < s.regs.length := by
  simp [State.hasHandlerWindow, or_assoc]

/-- An exception without a window for its handler is refused (60_exceptions.md R340). -/
theorem enterException_noWindow {s : State} {n : BitVec 6} {ret : Addr} {u : Bool}
    (h : s.hasHandlerWindow u = false) :
    enterException s n ret u = .refused (.handlerWindowOutsideFile (s.status.cwp - 1#5)) := by
  simp [enterException, h]

/-- The state the exception sequence leaves (60_exceptions.md R336). -/
theorem enterException_next {s t : State} {n : BitVec 6} {ret : Addr} {u : Bool}
    (h : enterException s n ret u = .next t) :
    s.hasHandlerWindow u = true ∧
      (s.exceptionStatus n u).phys regO7 < s.regs.length ∧ bytesBacked s.cfg (vectorAddr s.cfg n) 4 = true ∧
      t = { ((s.exceptionStatus n u).putReg regO7 (codeWord ret)).clearPrefix with
            pc := codeAddr (Memory.readWord s.mem (vectorAddr s.cfg n)), ds := none, stored := [] } := by
  unfold enterException at h
  split at h
  · obtain ⟨hw, h⟩ := writeReg_next h
    obtain ⟨hb, h⟩ := loadWord_next h
    cases h
    exact ⟨‹_›, hw, hb, rfl⟩
  · cases h

theorem enterException_eq {s : State} {n : BitVec 6} {ret : Addr} {u : Bool} (hh : s.hasHandlerWindow u = true)
    (hw : (s.exceptionStatus n u).phys regO7 < s.regs.length)
    (hb : bytesBacked s.cfg (vectorAddr s.cfg n) 4 = true) :
    enterException s n ret u = .next
      { ((s.exceptionStatus n u).putReg regO7 (codeWord ret)).clearPrefix with
        pc := codeAddr (Memory.readWord s.mem (vectorAddr s.cfg n)), ds := none, stored := [] } := by
  unfold enterException
  rw [if_pos hh, writeReg_eq (by simpa using hw), loadWord_eq (by simpa using hb)]
  rfl

theorem returnFromException_next {s t : State} {target : Addr} (h : returnFromException s target = .next t) :
    t = { s.clearPrefix with status := s.istatus, pc := target, ds := none, stored := [] } := by
  unfold returnFromException at h; cases h; rfl

/-! ### Shapes -/

theorem unary_next {s t : State} {a : RegIdx} {f : Word → Word} (h : unary s a f = .next t) :
    ∃ x, s.reg? a = some x ∧ t = (s.putReg a (f x)).advance := by
  obtain ⟨x, hx, h⟩ := readReg_next h
  exact ⟨x, hx, finish_next (writeReg_next h).2⟩

theorem unary_eq {s : State} {a : RegIdx} {x : Word} (h : s.reg? a = some x) (f : Word → Word) :
    unary s a f = .next (s.putReg a (f x)).advance := by
  simp [unary, readReg_eq h, writeReg_eq (reg?_isSome h), finish]

theorem binary_next {s t : State} {a b : RegIdx} {f : Word → Word → Word} (h : binary s a b f = .next t) :
    ∃ x y, s.reg? a = some x ∧ s.reg? b = some y ∧ t = (s.putReg a (f x y)).advance := by
  obtain ⟨x, hx, h⟩ := readReg_next h
  obtain ⟨y, hy, h⟩ := readReg_next h
  exact ⟨x, y, hx, hy, finish_next (writeReg_next h).2⟩

theorem binary_eq {s : State} {a b : RegIdx} {x y : Word} (hx : s.reg? a = some x) (hy : s.reg? b = some y)
    (f : Word → Word → Word) : binary s a b f = .next (s.putReg a (f x y)).advance := by
  simp [binary, readReg_eq hx, readReg_eq hy, writeReg_eq (reg?_isSome hx), finish]

theorem writeWithFlags_next {s t : State} {a : RegIdx} {v : Word} {f : Flags}
    (h : writeWithFlags s a v f = .next t) :
    s.phys a < s.regs.length ∧ t = ((s.setFlags f).putReg a v).advance := by
  obtain ⟨hw, h⟩ := writeReg_next h
  exact ⟨hw, finish_next h⟩

theorem writeWithFlags_eq {s : State} {a : RegIdx} (h : s.phys a < s.regs.length) (v : Word) (f : Flags) :
    writeWithFlags s a v f = .next ((s.setFlags f).putReg a v).advance :=
  writeReg_eq (s := s.setFlags f) h v finish

/-- The step: an accepted interrupt, or the decoded instruction (10_state.md R70). -/
theorem step_next {s t : State} (h : step s = .next t) :
    (s.acceptsIrq = true ∧ enterException s.tick s.irqNow.number s.pc false = .next t) ∨
      (s.acceptsIrq = false ∧ ∃ i, decodeWord (Memory.readHalf s.mem s.pc.toNat) = .ok i ∧
        exec i s.tick = .next t) := by
  unfold step at h
  split at h
  · exact .inl ⟨‹_›, h⟩
  · obtain ⟨-, -, h⟩ := fetchHalf_next h
    refine .inr ⟨Bool.eq_false_of_not_eq_true ‹¬ _›, ?_⟩
    unfold decodeOr at h
    split at h
    · exact ⟨_, ‹_›, h⟩
    · cases h
    · cases h

/-! ### STATUS and WVALID as bits -/

/-- STATUS bit by bit, from bit 0 up (10_state.md R58). -/
theorem Status.toWord_getLsbD (st : Status) (k : Nat) :
    st.toWord.getLsbD k =
      if k < 1 then st.flags.c
      else if k < 2 then st.flags.z
      else if k < 3 then st.flags.v
      else if k < 4 then st.flags.n
      else if k < 9 then st.cwp.getLsbD (k - 4)
      else if k < 15 then st.ipri.getLsbD (k - 9)
      else decide (k = 15) && st.ie := by
  unfold Status.toWord
  erw [BitVec.getLsbD_append]
  simp only [BitVec.getLsbD_append, BitVec.getLsbD_ofBool]
  rcases Nat.lt_or_ge k 16 with h | h
  · interval_cases k <;> simp
  · have h1 : ¬ k < 1 := by omega
    have h2 : ¬ k < 2 := by omega
    have h3 : ¬ k < 3 := by omega
    have h4 : ¬ k < 4 := by omega
    have h9 : ¬ k < 9 := by omega
    have h15 : ¬ k < 15 := by omega
    have e1 : ¬ k - 1 < 1 := by omega
    have e2 : ¬ k - 1 - 1 < 1 := by omega
    have e3 : ¬ k - 1 - 1 - 1 < 1 := by omega
    have e4 : ¬ k - 1 - 1 - 1 - 1 < 5 := by omega
    have e5 : ¬ k - 1 - 1 - 1 - 1 - 5 < 6 := by omega
    have d1 : ¬ k - 1 - 1 - 1 - 1 - 5 - 6 = 0 := by omega
    have d2 : ¬ k = 15 := by omega
    simp only [h1, h2, h3, h4, h9, h15, e1, e2, e3, e4, e5, d1, d2, if_false, decide_false, Bool.false_and]

/-- The value of the fields of a STATUS value. -/
theorem Status.toWord_ofWord (w : Half) : (Status.ofWord w).toWord = w := by
  apply BitVec.eq_of_getLsbD_eq
  intro i hi
  rw [Status.toWord_getLsbD]
  simp only [Status.ofWord, ← BitVec.getLsbD_eq_getElem, BitVec.getLsbD_extractLsb']
  interval_cases i <;> simp

/-- The fields of the value of STATUS. -/
theorem Status.ofWord_toWord (st : Status) : Status.ofWord st.toWord = st := by
  obtain ⟨ie, ipri, cwp, ⟨n, v, z, c⟩⟩ := st
  simp only [Status.ofWord, Status.mk.injEq, Flags.mk.injEq]
  refine ⟨?_, ?_, ?_, ?_, ?_, ?_, ?_⟩
  · simp [← BitVec.getLsbD_eq_getElem, Status.toWord_getLsbD]
  · apply BitVec.eq_of_getLsbD_eq
    intro i hi
    simp only [BitVec.getLsbD_extractLsb', Status.toWord_getLsbD]
    interval_cases i <;> simp
  · apply BitVec.eq_of_getLsbD_eq
    intro i hi
    simp only [BitVec.getLsbD_extractLsb', Status.toWord_getLsbD]
    interval_cases i <;> simp
  all_goals simp [← BitVec.getLsbD_eq_getElem, Status.toWord_getLsbD]

/-- WVALID's fields and its 10 bits (10_state.md R60). -/
theorem Wvalid.ofBits_toBits (w : Wvalid) : Wvalid.ofBits w.toBits = w := by
  obtain ⟨hi, lo⟩ := w
  simp only [Wvalid.ofBits, Wvalid.toBits, Wvalid.mk.injEq]
  exact ⟨BitVec.extractLsb'_append_eq_left, BitVec.extractLsb'_append_eq_right⟩

end Sys2Proof.Machine
end

