-- ==== Sys2Proof/Laws/Exec.lean ====
section
/-! SUPPORT. What each instruction can do, once: if its meaning answers a next state, then what was read and
which state that is. -/

namespace Sys2Proof.Machine

variable {s t : State}

/-! ### Arithmetic -/

theorem execAdd_next {a b : RegIdx} (h : execAdd a b s = .next t) :
    ∃ x y, s.reg? a = some x ∧ s.reg? b = some y ∧
      t = ((s.setFlags (addFlags x y)).putReg a (x + y)).advance := by
  obtain ⟨x, hx, h⟩ := readReg_next h
  obtain ⟨y, hy, h⟩ := readReg_next h
  exact ⟨x, y, hx, hy, (writeWithFlags_next h).2⟩

theorem execAddi_next {a : RegIdx} {imm : BitVec 5} (h : execAddi a imm s = .next t) :
    ∃ x, s.reg? a = some x ∧
      t = ((s.setFlags (addFlags x (imm16 s.k imm))).putReg a (x + imm16 s.k imm)).advance := by
  obtain ⟨x, hx, h⟩ := readReg_next h
  exact ⟨x, hx, (writeWithFlags_next h).2⟩

theorem execSub_next {a b : RegIdx} (h : execSub a b s = .next t) :
    ∃ x y, s.reg? a = some x ∧ s.reg? b = some y ∧
      t = ((s.setFlags (subFlags x y)).putReg a (x - y)).advance := by
  obtain ⟨x, hx, h⟩ := readReg_next h
  obtain ⟨y, hy, h⟩ := readReg_next h
  exact ⟨x, y, hx, hy, (writeWithFlags_next h).2⟩

theorem execSubi_next {a : RegIdx} {imm : BitVec 5} (h : execSubi a imm s = .next t) :
    ∃ x, s.reg? a = some x ∧
      t = ((s.setFlags (subFlags x (imm16 s.k imm))).putReg a (x - imm16 s.k imm)).advance := by
  obtain ⟨x, hx, h⟩ := readReg_next h
  exact ⟨x, hx, (writeWithFlags_next h).2⟩

theorem execCmp_next {a b : RegIdx} (h : execCmp a b s = .next t) :
    ∃ x y, s.reg? a = some x ∧ s.reg? b = some y ∧ t = (s.setFlags (subFlags x y)).advance := by
  obtain ⟨x, hx, h⟩ := readReg_next h
  obtain ⟨y, hy, h⟩ := readReg_next h
  exact ⟨x, y, hx, hy, finish_next h⟩

theorem execCmpi_next {a : RegIdx} {imm : BitVec 5} (h : execCmpi a imm s = .next t) :
    ∃ x, s.reg? a = some x ∧ t = (s.setFlags (subFlags x (imm16 s.k imm))).advance := by
  obtain ⟨x, hx, h⟩ := readReg_next h
  exact ⟨x, hx, finish_next h⟩

theorem execMstep_next {a : RegIdx} (h : execMstep a s = .next t) :
    ∃ r0 ra, s.reg? regR0 = some r0 ∧ s.reg? a = some ra ∧
      t = (s.putReg regR0 (multiplyStep r0 ra)).advance := by
  obtain ⟨x, hx, h⟩ := readReg_next h
  obtain ⟨y, hy, h⟩ := readReg_next h
  exact ⟨x, y, hx, hy, finish_next (writeReg_next h).2⟩

theorem execMul_next {a : RegIdx} (h : execMul a s = .next t) :
    ∃ r0 ra, s.reg? regR0 = some r0 ∧ s.reg? a = some ra ∧
      t = (s.putReg regR0 (multiplyLow r0 ra)).advance := by
  obtain ⟨x, hx, h⟩ := readReg_next h
  obtain ⟨y, hy, h⟩ := readReg_next h
  exact ⟨x, y, hx, hy, finish_next (writeReg_next h).2⟩

theorem execNeg_next {a : RegIdx} (h : execNeg a s = .next t) :
    ∃ x, s.reg? a = some x ∧ t = (s.putReg a (0#32 - x)).advance := unary_next h

theorem execAbs_next {a : RegIdx} (h : execAbs a s = .next t) :
    ∃ x, s.reg? a = some x ∧ t = (s.putReg a (if x.msb then 0#32 - x else x)).advance := unary_next h

theorem execNot_next {a : RegIdx} (h : execNot a s = .next t) :
    ∃ x, s.reg? a = some x ∧ t = (s.putReg a (~~~x)).advance := unary_next h

theorem execSwap_next {a : RegIdx} (h : execSwap a s = .next t) :
    ∃ x, s.reg? a = some x ∧ t = (s.putReg a (halfOf x 0#1 ++ halfOf x 1#1)).advance := unary_next h

theorem execSext8_next {a : RegIdx} (h : execSext8 a s = .next t) :
    ∃ x, s.reg? a = some x ∧ t = (s.putReg a ((byteOf x 0#2).signExtend 32)).advance := unary_next h

theorem execSext16_next {a : RegIdx} (h : execSext16 a s = .next t) :
    ∃ x, s.reg? a = some x ∧ t = (s.putReg a ((halfOf x 0#1).signExtend 32)).advance := unary_next h

theorem execLsli_next {a : RegIdx} {imm : BitVec 5} (h : execLsli a imm s = .next t) :
    ∃ x, s.reg? a = some x ∧ t = (s.putReg a (shiftLeft x imm)).advance := unary_next h

theorem execLsri_next {a : RegIdx} {imm : BitVec 5} (h : execLsri a imm s = .next t) :
    ∃ x, s.reg? a = some x ∧ t = (s.putReg a (shiftRight x imm)).advance := unary_next h

theorem execAsri_next {a : RegIdx} {imm : BitVec 5} (h : execAsri a imm s = .next t) :
    ∃ x, s.reg? a = some x ∧ t = (s.putReg a (shiftRightSigned x imm)).advance := unary_next h

theorem execMovhi_next {a : RegIdx} {imm : BitVec 5} (h : execMovhi a imm s = .next t) :
    ∃ x, s.reg? a = some x ∧ t = (s.putReg a (kImm5 s.k imm ++ halfOf x 0#1)).advance := unary_next h

theorem execExt8s_next {a : RegIdx} {imm : BitVec 2} (h : execExt8s a imm s = .next t) :
    ∃ x, s.reg? a = some x ∧ t = (s.putReg a (extractByte x imm)).advance := unary_next h

theorem execExt16s_next {a : RegIdx} {imm : BitVec 1} (h : execExt16s a imm s = .next t) :
    ∃ x, s.reg? a = some x ∧ t = (s.putReg a (extractHalf x imm)).advance := unary_next h

theorem execLsl_next {a b : RegIdx} (h : execLsl a b s = .next t) :
    ∃ x y, s.reg? a = some x ∧ s.reg? b = some y ∧ t = (s.putReg a (shiftLeft x (shiftCount y))).advance := binary_next h

theorem execLsr_next {a b : RegIdx} (h : execLsr a b s = .next t) :
    ∃ x y, s.reg? a = some x ∧ s.reg? b = some y ∧ t = (s.putReg a (shiftRight x (shiftCount y))).advance := binary_next h

theorem execAsr_next {a b : RegIdx} (h : execAsr a b s = .next t) :
    ∃ x y, s.reg? a = some x ∧ s.reg? b = some y ∧ t = (s.putReg a (shiftRightSigned x (shiftCount y))).advance := binary_next h

theorem execExt8d_next {a b : RegIdx} (h : execExt8d a b s = .next t) :
    ∃ x y, s.reg? a = some x ∧ s.reg? b = some y ∧ t = (s.putReg a (extractByte x (byteLane y))).advance := binary_next h

theorem execExt16d_next {a b : RegIdx} (h : execExt16d a b s = .next t) :
    ∃ x y, s.reg? a = some x ∧ s.reg? b = some y ∧ t = (s.putReg a (extractHalf x (halfLane y))).advance := binary_next h

/-- AND, ANDN, OR and XOR: the second operand is the register unprefixed, the constant after a PFX. -/
theorem logicOp_next {a : RegIdx} {b : BitVec 5} {op : Word → Word → Word} (h : logicOp s a b op = .next t) :
    ∃ x y, s.reg? a = some x ∧ ((s.pfxf = true ∧ y = imm16 s.k b) ∨ (s.pfxf = false ∧ s.reg? b = some y)) ∧
      t = ((s.setFlags (logicFlags s.status.flags (op x y))).putReg a (op x y)).advance := by
  obtain ⟨x, hx, h⟩ := readReg_next h
  unfold logicOperand at h
  split at h
  · exact ⟨x, _, hx, .inl ⟨‹_›, rfl⟩, (writeWithFlags_next h).2⟩
  · obtain ⟨y, hy, h⟩ := readReg_next h
    exact ⟨x, y, hx, .inr ⟨Bool.eq_false_of_not_eq_true ‹¬ _›, hy⟩, (writeWithFlags_next h).2⟩

theorem execRlc_next {a : RegIdx} (h : execRlc a s = .next t) :
    ∃ x, s.reg? a = some x ∧
      t = ((s.setFlags { s.status.flags with c := x[31] }).putReg a (rotateLeftC x s.status.flags.c)).advance := by
  obtain ⟨x, hx, h⟩ := readReg_next h
  exact ⟨x, hx, (writeWithFlags_next h).2⟩

theorem execRrc_next {a : RegIdx} (h : execRrc a s = .next t) :
    ∃ x, s.reg? a = some x ∧
      t = ((s.setFlags { s.status.flags with c := x[0] }).putReg a (rotateRightC x s.status.flags.c)).advance := by
  obtain ⟨x, hx, h⟩ := readReg_next h
  exact ⟨x, hx, (writeWithFlags_next h).2⟩

theorem execBgen_next {a : RegIdx} {imm : BitVec 5} (h : execBgen a imm s = .next t) :
    s.phys a < s.regs.length ∧ t = (s.putReg a (shiftLeft 1#32 imm)).advance := (writeReg_next h).imp id finish_next

theorem execMovi_next {a : RegIdx} {imm : BitVec 5} (h : execMovi a imm s = .next t) :
    s.phys a < s.regs.length ∧ t = (s.putReg a (imm16 s.k imm)).advance := (writeReg_next h).imp id finish_next

theorem execMov_next {a b : RegIdx} (h : execMov a b s = .next t) :
    ∃ y, s.reg? b = some y ∧ s.phys a < s.regs.length ∧ t = (s.putReg a y).advance := by
  obtain ⟨y, hy, h⟩ := readReg_next h
  exact ⟨y, hy, (writeReg_next h).imp id finish_next⟩

theorem execFill8_next {a : RegIdx} (h : execFill8 a s = .next t) :
    ∃ x, s.reg? a = some x ∧ t = (s.putReg regR0 (fillByte x)).advance := by
  obtain ⟨x, hx, h⟩ := readReg_next h
  exact ⟨x, hx, finish_next (writeReg_next h).2⟩

theorem execFill16_next {a : RegIdx} (h : execFill16 a s = .next t) :
    ∃ x, s.reg? a = some x ∧ t = (s.putReg regR0 (fillHalf x)).advance := by
  obtain ⟨x, hx, h⟩ := readReg_next h
  exact ⟨x, hx, finish_next (writeReg_next h).2⟩

theorem execPfx_next {imm : BitVec 11} (h : execPfx imm s = .next t) :
    s.ds = none ∧ s.pfxf = false ∧ t = { s.advance with k := imm, pfxf := true } := by
  obtain ⟨hd, h⟩ := outsideDelaySlot_next h
  split at h
  · cases h
  · cases h
    exact ⟨hd, Bool.eq_false_of_not_eq_true ‹¬ _›, rfl⟩

/-! ### Loads and stores -/

theorem loadTo_next {a : RegIdx} {addr : Word} (h : loadTo s a addr = .next t) :
    bytesBacked s.cfg addr.toNat 4 = true ∧ s.phys a < s.regs.length ∧
      t = (s.putReg a (Memory.readWord s.mem addr.toNat)).advance := by
  obtain ⟨hb, h⟩ := loadWord_next h
  exact ⟨hb, (writeReg_next h).imp id finish_next⟩

/-- The state a store leaves. -/
def storedState (s : State) (addr : Nat) (vs : List Byte) : State :=
  { State.advance { s with mem := Memory.writeBytes s.mem addr vs } with
    stored := insertAddrs addr vs.length (if s.ds.isSome then [] else s.stored) }

theorem storeWordFrom_next {a : RegIdx} {addr : Word} (h : storeWordFrom s a addr = .next t) :
    ∃ v, s.reg? a = some v ∧ bytesBacked s.cfg addr.toNat 4 = true ∧ t = storedState s addr.toNat (wordBytes v) := by
  obtain ⟨v, hv, h⟩ := readReg_next h
  exact ⟨v, hv, storeAndFinish_next h⟩

theorem storeByteLane_next {addr : Word} {n : BitVec 2} (h : storeByteLane s addr n = .next t) :
    ∃ v, s.reg? regR0 = some v ∧ bytesBacked s.cfg (byteLaneAddr addr n) 1 = true ∧
      t = storedState s (byteLaneAddr addr n) [byteOf v n] := by
  obtain ⟨v, hv, h⟩ := readReg_next h
  exact ⟨v, hv, storeAndFinish_next h⟩

theorem storeHalfLane_next {addr : Word} {n : BitVec 1} (h : storeHalfLane s addr n = .next t) :
    ∃ v, s.reg? regR0 = some v ∧ bytesBacked s.cfg (halfLaneAddr addr n) 2 = true ∧
      t = storedState s (halfLaneAddr addr n) (halfBytes (halfOf v n)) := by
  obtain ⟨v, hv, h⟩ := readReg_next h
  exact ⟨v, hv, storeAndFinish_next h⟩

/-! ### Control flow -/

theorem execBr_next {imm : BitVec 11} (h : execBr imm s = .next t) :
    s.ds = none ∧
      t = { s.clearPrefix with pc := s.pc + 2#33, ds := some (branchTarget s.pc imm) } := (outsideDelaySlot_next h).imp id delayedTo_next

theorem execBsr_next {imm : BitVec 11} (h : execBsr imm s = .next t) :
    s.ds = none ∧ s.phys regO7 < s.regs.length ∧
      t = { (s.putReg regO7 (linkWord s)).clearPrefix with pc := s.pc + 2#33, ds := some (branchTarget s.pc imm) } := by
  obtain ⟨hd, h⟩ := outsideDelaySlot_next h
  exact ⟨hd, (writeReg_next h).imp id delayedTo_next⟩

theorem execJmp_next {a : RegIdx} (h : execJmp a s = .next t) :
    s.ds = none ∧ ∃ x, s.reg? a = some x ∧
      t = { s.clearPrefix with pc := s.pc + 2#33, ds := some (codeAddr x) } := by
  obtain ⟨hd, h⟩ := outsideDelaySlot_next h
  obtain ⟨x, hx, h⟩ := readReg_next h
  exact ⟨hd, x, hx, delayedTo_next h⟩

theorem execCall_next {a : RegIdx} (h : execCall a s = .next t) :
    s.ds = none ∧ ∃ x, s.reg? a = some x ∧ s.phys regO7 < s.regs.length ∧
      t = { (s.putReg regO7 (linkWord s)).clearPrefix with pc := s.pc + 2#33, ds := some (codeAddr x) } := by
  obtain ⟨hd, h⟩ := outsideDelaySlot_next h
  obtain ⟨x, hx, h⟩ := readReg_next h
  exact ⟨hd, x, hx, (writeReg_next h).imp id delayedTo_next⟩

/-- How a skip ends: sequentially where the test fails, past the next instruction or PFX pair where it holds. -/
def SkippedTo (s t : State) (test : Bool) : Prop :=
  (test = false ∧ t = s.advance) ∨
    (test = true ∧ t = { s.clearPrefix with
      pc := s.pc + (if isPfxWord (Memory.readHalf s.mem (s.pc + 2#33).toNat) then 6#33 else 4#33) })

theorem skipIf_ends {test : Bool} (h : skipIf s test = .next t) : SkippedTo s t test :=
  (skipIf_next h).imp id fun h => ⟨h.1, h.2.2.2⟩

/-- A skip that tests a register. -/
theorem skipOnRegister_next {a : RegIdx} {test : Word → Bool}
    (h : outsideDelaySlot s (readReg s a fun x => skipIf s (test x)) = .next t) :
    s.ds = none ∧ ∃ x, s.reg? a = some x ∧ SkippedTo s t (test x) := by
  obtain ⟨hd, h⟩ := outsideDelaySlot_next h
  obtain ⟨x, hx, h⟩ := readReg_next h
  exact ⟨hd, x, hx, skipIf_ends h⟩

theorem execSkp0_next {a : RegIdx} {imm : BitVec 5} (h : execSkp0 a imm s = .next t) :
    s.ds = none ∧ ∃ x, s.reg? a = some x ∧ SkippedTo s t (!bitOf x imm) := skipOnRegister_next h

theorem execSkp1_next {a : RegIdx} {imm : BitVec 5} (h : execSkp1 a imm s = .next t) :
    s.ds = none ∧ ∃ x, s.reg? a = some x ∧ SkippedTo s t (bitOf x imm) := skipOnRegister_next h

theorem execSkprz_next {a : RegIdx} (h : execSkprz a s = .next t) :
    s.ds = none ∧ ∃ x, s.reg? a = some x ∧ SkippedTo s t (x == 0#32) := skipOnRegister_next h

theorem execSkprnz_next {a : RegIdx} (h : execSkprnz a s = .next t) :
    s.ds = none ∧ ∃ x, s.reg? a = some x ∧ SkippedTo s t (x != 0#32) := skipOnRegister_next h

theorem execSkps_next {cond : BitVec 4} (h : execSkps cond s = .next t) :
    s.ds = none ∧ ∃ test, conditionHolds cond s.status.flags = some test ∧ SkippedTo s t test := by
  obtain ⟨hd, h⟩ := outsideDelaySlot_next h
  split at h
  · exact ⟨hd, _, ‹_›, skipIf_ends h⟩
  · cases h

/-! ### System -/

/-- The state the exception sequence leaves (60_exceptions.md R336). -/
def enteredState (s : State) (n : BitVec 6) (ret : Addr) (underflow : Bool) : State :=
  { ((s.exceptionStatus n underflow).putReg regO7 (codeWord ret)).clearPrefix with
    pc := codeAddr (Memory.readWord s.mem (vectorAddr s.cfg n)), ds := none, stored := [] }

theorem enterException_entered {n : BitVec 6} {ret : Addr} {u : Bool} (h : enterException s n ret u = .next t) :
    t = enteredState s n ret u := (enterException_next h).2.2.2

/-- The pc after an exception entry is twice a word read from the vector table. -/
theorem enteredState_pc (s : State) (n : BitVec 6) (ret : Addr) (u : Bool) :
    (enteredState s n ret u).pc = codeAddr (Memory.readWord s.mem (vectorAddr s.cfg n)) := rfl

theorem execSave_next {imm : BitVec 8} (h : execSave imm s = .next t) :
    ∃ fp, (s.setCwp (s.status.cwp - 1#5)).reg? regFp = some fp ∧
      let opened := (s.setCwp (s.status.cwp - 1#5)).putReg regSp (fp - imm.setWidth 32 * 4#32)
      if s.status.cwp == s.wvalid.lo && s.takesInternal underflowNumber
      then t = enteredState opened underflowNumber s.next true else t = opened.advance := by
  obtain ⟨fp, hfp, h⟩ := readReg_next h
  obtain ⟨-, h⟩ := writeReg_next h
  refine ⟨fp, hfp, ?_⟩
  split at h
  · rw [if_pos ‹_›]; exact enterException_entered h
  · rw [if_neg ‹_›]; exact finish_next h

theorem execRestore_next (h : execRestore s = .next t) :
    if s.status.cwp == s.wvalid.hi && s.takesInternal overflowNumber
      then t = enteredState (s.setCwp (s.status.cwp + 1#5)) overflowNumber s.next false
      else t = (s.setCwp (s.status.cwp + 1#5)).advance := by
  unfold execRestore at h
  split at h
  · rw [if_pos ‹_›]; exact enterException_entered h
  · rw [if_neg ‹_›]; exact finish_next h

theorem execTrap_next {imm : BitVec 6} (h : execTrap imm s = .next t) :
    s.ds = none ∧ t = enteredState s imm (s.pc + 2#33) false := (outsideDelaySlot_next h).imp id enterException_entered

theorem execTret_next {a : RegIdx} (h : execTret a s = .next t) :
    s.ds = none ∧ ∃ x, s.reg? a = some x ∧
      t = { s.clearPrefix with status := s.istatus, pc := codeAddr x, ds := none, stored := [] } := by
  obtain ⟨hd, h⟩ := outsideDelaySlot_next h
  obtain ⟨x, hx, h⟩ := readReg_next h
  exact ⟨hd, x, hx, returnFromException_next h⟩

theorem execRdctl_next {a : RegIdx} (h : execRdctl a s = .next t) :
    ∃ c, controlReg s.k = some c ∧ s.phys a < s.regs.length ∧
      t = (State.putReg { s with freeCount := s.freeCount + 1 } a
        (controlValue s (Config.freeWord s.freeCount) c)).advance := by
  unfold execRdctl at h
  split at h
  · exact ⟨_, ‹_›, (writeReg_next h).imp id finish_next⟩
  · cases h

/-- The state a write of one control register leaves. -/
def writtenState (s : State) (v : Word) : ControlReg → State
  | .status => State.advance { s with status := Status.ofWord (v.extractLsb' 0 16) }
  | .istatus => State.advance { s with istatus := Status.ofWord (v.extractLsb' 0 16) }
  | .wvalid =>
    State.advance (if s.cfg.wvalidWritable then { s with wvalid := Wvalid.ofBits (v.extractLsb' 0 10) } else s)
  | .clrIe => (s.setIe false).advance
  | .setIe => (s.setIe true).advance

theorem writeControl_next {v : Word} {c : ControlReg} (h : writeControl s v c = .next t) : t = writtenState s v c := by
  cases c with
  | status =>
    unfold writeControl beforeNop at h
    obtain ⟨-, h⟩ := loadHalf_next h
    split at h
    · exact finish_next h
    · cases h
  | _ => exact finish_next h

theorem execWrctl_next {a : RegIdx} (h : execWrctl a s = .next t) :
    ∃ v c, s.reg? a = some v ∧ controlReg s.k = some c ∧ t = writtenState s v c := by
  obtain ⟨v, hv, h⟩ := readReg_next h
  split at h
  · exact ⟨v, _, hv, ‹_›, writeControl_next h⟩
  · cases h

/-- Which control register an index names (10_state.md R53). -/
theorem controlReg_eq {k : BitVec 11} {c : ControlReg} (h : controlReg k = some c) :
    (k = 0#11 ∧ c = .status) ∨ (k = 1#11 ∧ c = .istatus) ∨ (k = 2#11 ∧ c = .wvalid) ∨ (k = 8#11 ∧ c = .clrIe) ∨
      (k = 9#11 ∧ c = .setIe) := by
  unfold controlReg at h
  split at h <;> first
    | (cases h; done)
    | (cases h; simp_all [← BitVec.toNat_inj])

end Sys2Proof.Machine
end

