-- ==== Sys2Proof/Laws/Frames.lean ====
section
/-! SUPPORT. What the shared ways to end an instruction leave unchanged, in the words of Sys2Proof/Safety.lean. -/

namespace Sys2Proof.Machine

theorem SameRegistersBut.of_putReg (s t : State) (i : RegIdx) (v : Word) (h : t.regs = (s.putReg i v).regs) :
    SameRegistersBut s t [s.phys i] := by
  refine ⟨by simp [h], fun p hp => ?_⟩
  rw [h]
  exact putReg_regs_ne (by simpa using hp)

/-- The end of an instruction that writes one register and the flags. -/
theorem WritesRegisterAndFlags.of_advance {s : State} {a : RegIdx} (h : s.phys a < s.regs.length) (v : Word)
    (f : Flags) : WritesRegisterAndFlags s ((s.setFlags f).putReg a v).advance a v f := by
  refine ⟨?_, SameRegistersBut.of_putReg s _ a v rfl, rfl, ⟨rfl, rfl, rfl, rfl, rfl, rfl⟩, fun _ => rfl⟩
  rw [advance_reg?]
  exact putReg_reg?_self h

/-- The end of an instruction that writes one register. -/
theorem WritesRegister.of_advance {s : State} {a : RegIdx} (h : s.phys a < s.regs.length) (v : Word) :
    WritesRegister s (s.putReg a v).advance a v :=
  WritesRegisterAndFlags.of_advance h v s.status.flags

/-- The end of an instruction that writes nothing. -/
theorem Untouched.of_advance (s : State) : Untouched s s.advance :=
  ⟨rfl, rfl, ⟨rfl, rfl, rfl, rfl, rfl, rfl⟩, fun _ => rfl⟩

/-- The word `Memory.readWord` gives is the one whose bytes stand there. -/
theorem WordAt.of_readWord (m : Memory) (addr : Nat) : WordAt m addr (Memory.readWord m addr) := by
  intro j hj
  apply BitVec.eq_of_getLsbD_eq
  intro i hi
  unfold Memory.readWord
  rw [BitVec.getLsbD_extractLsb']
  erw [BitVec.getLsbD_append]
  simp only [BitVec.getLsbD_append]
  interval_cases j <;> interval_cases i <;> simp

/-- The half-word `Memory.readHalf` gives is the one whose bytes stand there. -/
theorem HalfAt.of_readHalf (m : Memory) (addr : Nat) : HalfAt m addr (Memory.readHalf m addr) := by
  intro j hj
  apply BitVec.eq_of_getLsbD_eq
  intro i hi
  unfold Memory.readHalf
  rw [BitVec.getLsbD_extractLsb']
  erw [BitVec.getLsbD_append]
  interval_cases j <;> interval_cases i <;> simp

/-- A word is its four bytes. -/
theorem WordAt.unique {m : Memory} {addr : Nat} {v w : Word} (hv : WordAt m addr v) (hw : WordAt m addr w) :
    v = w := by
  apply BitVec.eq_of_getLsbD_eq
  intro i hi
  have h := (hv (i / 8) (by omega)).symm.trans (hw (i / 8) (by omega))
  have hb := congrArg (fun x => x.getLsbD (i % 8)) h
  simp only [BitVec.getLsbD_extractLsb'] at hb
  rw [show 8 * (i / 8) + i % 8 = i by omega] at hb
  simpa [Nat.mod_lt] using hb

/-- A half-word is its two bytes. -/
theorem HalfAt.unique {m : Memory} {addr : Nat} {v w : Half} (hv : HalfAt m addr v) (hw : HalfAt m addr w) :
    v = w := by
  apply BitVec.eq_of_getLsbD_eq
  intro i hi
  have h := (hv (i / 8) (by omega)).symm.trans (hw (i / 8) (by omega))
  have hb := congrArg (fun x => x.getLsbD (i % 8)) h
  simp only [BitVec.getLsbD_extractLsb'] at hb
  rw [show 8 * (i / 8) + i % 8 = i by omega] at hb
  simpa [Nat.mod_lt] using hb

/-- A word written stands there. -/
theorem WordAt.of_writeBytes (m : Memory) (hm : m.wf = true) (addr : Nat) (v : Word) :
    WordAt (m.writeBytes addr (wordBytes v)) addr v := by
  intro j hj
  rw [read_writeBytes_inside m addr (wordBytes v) hm j (by simpa [wordBytes] using hj)]
  interval_cases j <;> rfl

/-- A half-word written stands there. -/
theorem HalfAt.of_writeBytes (m : Memory) (hm : m.wf = true) (addr : Nat) (v : Half) :
    HalfAt (m.writeBytes addr (halfBytes v)) addr v := by
  intro j hj
  rw [read_writeBytes_inside m addr (halfBytes v) hm j (by simpa [halfBytes] using hj)]
  interval_cases j <;> rfl

end Sys2Proof.Machine
end

