-- ==== Sys2Proof/Laws/Operands.lean ====
section
/-! SUPPORT. The operand forms as exact numbers. -/

namespace Sys2Proof.Machine

/-- A code address is twice the register that holds it (44_control_flow.md R265). -/
theorem codeAddr_toNat (v : Word) : (codeAddr v).toNat = 2 * v.toNat := by
  unfold codeAddr
  erw [BitVec.toNat_append]
  rw [Nat.shiftLeft_eq]
  simp [Nat.mul_comm]

/-- A byte address shifted right by one fits 32 bits: nothing is lost (60_exceptions.md R338). -/
theorem codeWord_toNat (addr : Addr) : (codeWord addr).toNat = addr.toNat / 2 := by
  have h := addr.isLt
  unfold codeWord
  rw [BitVec.extractLsb'_toNat, Nat.shiftRight_eq_div_pow]
  omega

/-- An even address survives the shift to a code word and back. -/
theorem codeAddr_codeWord {addr : Addr} (h : addr.toNat % 2 = 0) : codeAddr (codeWord addr) = addr := by
  apply BitVec.eq_of_toNat_eq
  rw [codeAddr_toNat, codeWord_toNat]
  omega

/-- `K : IMM5` as a number (30_encoding.md R127). -/
theorem kImm5_toNat (k : BitVec 11) (imm : BitVec 5) : (kImm5 k imm).toNat = 32 * k.toNat + imm.toNat := by
  unfold kImm5
  erw [BitVec.toNat_append]
  rw [Nat.shiftLeft_eq, ← Nat.mul_comm, ← Nat.two_pow_add_eq_or_of_lt imm.isLt]

/-- `imm16` as a number: zero-extended, never sign-extended (R127). -/
theorem imm16_toNat (k : BitVec 11) (imm : BitVec 5) : (imm16 k imm).toNat = 32 * k.toNat + imm.toNat := by
  have hk := k.isLt
  have hi := imm.isLt
  rw [imm16, BitVec.toNat_setWidth, kImm5_toNat]
  omega

/-- The branch target, whose offset counts from the instruction after the branch (44_control_flow.md R263). -/
theorem branchTarget_eq (pc : Addr) (imm : BitVec 11) :
    branchTarget pc imm = pc + 2#33 + 2#33 * imm.signExtend 33 := by
  unfold branchTarget
  rw [BitVec.add_mul, BitVec.mul_comm (imm.signExtend 33)]
  ac_rfl

/-- The opcode bits of a half-word in memory are the high bits of its second byte (20_memory.md R81; 44_control_flow.md
R270). -/
theorem isPfxWord_readHalf (m : Memory) (addr : Nat) :
    isPfxWord (Memory.readHalf m addr) = ((Memory.read m (addr + 1)).extractLsb' 3 5 == 0b10011#5) := by
  unfold isPfxWord Memory.readHalf
  congr 1
  ext i hi
  have h : ¬ (11 + i < 8) := by omega
  simp only [BitVec.getElem_extractLsb', BitVec.getLsbD_append, h, if_false]
  congr 1
  omega

/-- The base pointers are visible registers 16 to 19 (30_encoding.md R114). -/
theorem pointerReg_eq (p : BitVec 2) : pointerReg p = BitVec.ofNat 5 (16 + p.toNat) := by
  revert p; decide

/-- A vector entry lies where the constraints on VECBASE keep it, without a wrap (60_exceptions.md R322, R323). -/
theorem vectorAddr_eq {c : Config} (h : c.wf = true) (n : BitVec 6) :
    vectorAddr c n = c.vecBase.toNat + 4 * n.toNat := by
  have hn := n.isLt
  simp only [Config.wf, Bool.and_eq_true, decide_eq_true_eq] at h
  unfold vectorAddr
  rw [BitVec.toNat_add, BitVec.toNat_mul, BitVec.toNat_setWidth]
  simp only [BitVec.toNat_ofNat]
  omega

end Sys2Proof.Machine
end

