-- ==== Sys2Proof/Laws/PerInstr.lean ====
section
/-! SUPPORT. A statement about every instruction as syntax, one lemma per constructor: its word carries the
opcode bits of its row of the opcode map (30_encoding.md R115, R119). -/

namespace Sys2Proof.Laws.OpcodeBits

/-- The leading fixed bits of an instruction's row in the opcode map: how many, and which. -/
def row : Instr → (n : Nat) × BitVec n
  | .add _ _ => ⟨6, 0b000000#6⟩
  | .addi _ _ => ⟨6, 0b000001#6⟩
  | .sub _ _ => ⟨6, 0b000010#6⟩
  | .subi _ _ => ⟨6, 0b000011#6⟩
  | .cmp _ _ => ⟨6, 0b000100#6⟩
  | .cmpi _ _ => ⟨6, 0b000101#6⟩
  | .lsl _ _ => ⟨6, 0b000110#6⟩
  | .lsli _ _ => ⟨6, 0b000111#6⟩
  | .lsr _ _ => ⟨6, 0b001000#6⟩
  | .lsri _ _ => ⟨6, 0b001001#6⟩
  | .asr _ _ => ⟨6, 0b001010#6⟩
  | .asri _ _ => ⟨6, 0b001011#6⟩
  | .mov _ _ => ⟨6, 0b001100#6⟩
  | .movi _ _ => ⟨6, 0b001101#6⟩
  | .and _ _ => ⟨6, 0b001110#6⟩
  | .andn _ _ => ⟨6, 0b001111#6⟩
  | .or _ _ => ⟨6, 0b010000#6⟩
  | .xor _ _ => ⟨6, 0b010001#6⟩
  | .bgen _ _ => ⟨6, 0b010010#6⟩
  | .ext8d _ _ => ⟨6, 0b010011#6⟩
  | .skp0 _ _ => ⟨6, 0b010100#6⟩
  | .skp1 _ _ => ⟨6, 0b010101#6⟩
  | .ld _ _ => ⟨6, 0b010110#6⟩
  | .st _ _ => ⟨6, 0b010111#6⟩
  | .sts8s _ => ⟨6, 0b011000#6⟩
  | .sts16s _ => ⟨6, 0b011001#6⟩
  | .ext16d _ _ => ⟨6, 0b011010#6⟩
  | .movhi _ _ => ⟨6, 0b011011#6⟩
  | .usr0 _ _ => ⟨6, 0b011100#6⟩
  | .ext8s _ _ => ⟨9, 0b011101000#9⟩
  | .ext16s _ _ => ⟨9, 0b011101001#9⟩
  | .st8s _ _ => ⟨9, 0b011101100#9⟩
  | .st16s _ _ => ⟨9, 0b011101101#9⟩
  | .save _ => ⟨8, 0b01111000#8⟩
  | .trap _ => ⟨10, 0b0111100100#10⟩
  | .not _ => ⟨11, 0b01111100000#11⟩
  | .neg _ => ⟨11, 0b01111100001#11⟩
  | .abs _ => ⟨11, 0b01111100010#11⟩
  | .sext8 _ => ⟨11, 0b01111100011#11⟩
  | .sext16 _ => ⟨11, 0b01111100100#11⟩
  | .rlc _ => ⟨11, 0b01111100101#11⟩
  | .rrc _ => ⟨11, 0b01111100110#11⟩
  | .swap _ => ⟨11, 0b01111101000#11⟩
  | .usr1 _ => ⟨11, 0b01111101001#11⟩
  | .usr2 _ => ⟨11, 0b01111101010#11⟩
  | .usr3 _ => ⟨11, 0b01111101011#11⟩
  | .usr4 _ => ⟨11, 0b01111101100#11⟩
  | .restore => ⟨16, 0b0111110110100000#16⟩
  | .tret _ => ⟨11, 0b01111101110#11⟩
  | .st8d _ => ⟨11, 0b01111110000#11⟩
  | .st16d _ => ⟨11, 0b01111110001#11⟩
  | .fill8 _ => ⟨11, 0b01111110010#11⟩
  | .fill16 _ => ⟨11, 0b01111110011#11⟩
  | .mstep _ => ⟨11, 0b01111110100#11⟩
  | .mul _ => ⟨11, 0b01111110101#11⟩
  | .skprz _ => ⟨11, 0b01111110110#11⟩
  | .skps _ => ⟨12, 0b011111101110#12⟩
  | .wrctl _ => ⟨11, 0b01111111000#11⟩
  | .rdctl _ => ⟨11, 0b01111111001#11⟩
  | .skprnz _ => ⟨11, 0b01111111010#11⟩
  | .jmp _ => ⟨11, 0b01111111110#11⟩
  | .call _ => ⟨11, 0b01111111111#11⟩
  | .br _ => ⟨5, 0b10000#5⟩
  | .bsr _ => ⟨5, 0b10001#5⟩
  | .pfx _ => ⟨5, 0b10011#5⟩
  | .stp _ _ _ => ⟨4, 0b1010#4⟩
  | .ldp _ _ _ => ⟨4, 0b1011#4⟩
  | .sts _ _ => ⟨3, 0b110#3⟩
  | .lds _ _ => ⟨3, 0b111#3⟩

/-- The word of `i` begins with the opcode bits of its row. -/
def Statement (i : Instr) : Prop := (encode i).extractLsb' (16 - (row i).1) (row i).1 = (row i).2

theorem lead_of_two {n m : Nat} (x : BitVec n) (y : BitVec m) : (x ++ y).extractLsb' m n = x :=
  BitVec.extractLsb'_append_eq_left

theorem lead_of_three {n m k : Nat} (x : BitVec n) (y : BitVec m) (z : BitVec k) :
    (x ++ y ++ z).extractLsb' (k + m) n = x := by
  apply BitVec.eq_of_getLsbD_eq
  intro i hi
  have h1 : ¬ k + m + i < k := by omega
  have h2 : ¬ k + m + i - k < m := by omega
  have h3 : k + m + i - k - m = i := by omega
  simp [BitVec.getLsbD_append, hi, h1, h2, h3]

theorem lead_of_four {n m k l : Nat} (x : BitVec n) (y : BitVec m) (z : BitVec k) (w : BitVec l) :
    (x ++ y ++ z ++ w).extractLsb' (l + (k + m)) n = x := by
  apply BitVec.eq_of_getLsbD_eq
  intro i hi
  have h1 : ¬ l + (k + m) + i < l := by omega
  have h2 : ¬ l + (k + m) + i - l < k := by omega
  have h3 : ¬ l + (k + m) + i - l - k < m := by omega
  have h4 : l + (k + m) + i - l - k - m = i := by omega
  simp [BitVec.getLsbD_append, hi, h1, h2, h3, h4]

theorem add (a : BitVec 5) (b : BitVec 5) : Statement (.add a b) := lead_of_three _ _ _
theorem addi (a : BitVec 5) (imm : BitVec 5) : Statement (.addi a imm) := lead_of_three _ _ _
theorem sub (a : BitVec 5) (b : BitVec 5) : Statement (.sub a b) := lead_of_three _ _ _
theorem subi (a : BitVec 5) (imm : BitVec 5) : Statement (.subi a imm) := lead_of_three _ _ _
theorem cmp (a : BitVec 5) (b : BitVec 5) : Statement (.cmp a b) := lead_of_three _ _ _
theorem cmpi (a : BitVec 5) (imm : BitVec 5) : Statement (.cmpi a imm) := lead_of_three _ _ _
theorem lsl (a : BitVec 5) (b : BitVec 5) : Statement (.lsl a b) := lead_of_three _ _ _
theorem lsli (a : BitVec 5) (imm : BitVec 5) : Statement (.lsli a imm) := lead_of_three _ _ _
theorem lsr (a : BitVec 5) (b : BitVec 5) : Statement (.lsr a b) := lead_of_three _ _ _
theorem lsri (a : BitVec 5) (imm : BitVec 5) : Statement (.lsri a imm) := lead_of_three _ _ _
theorem asr (a : BitVec 5) (b : BitVec 5) : Statement (.asr a b) := lead_of_three _ _ _
theorem asri (a : BitVec 5) (imm : BitVec 5) : Statement (.asri a imm) := lead_of_three _ _ _
theorem mov (a : BitVec 5) (b : BitVec 5) : Statement (.mov a b) := lead_of_three _ _ _
theorem movi (a : BitVec 5) (imm : BitVec 5) : Statement (.movi a imm) := lead_of_three _ _ _
theorem and (a : BitVec 5) (b : BitVec 5) : Statement (.and a b) := lead_of_three _ _ _
theorem andn (a : BitVec 5) (b : BitVec 5) : Statement (.andn a b) := lead_of_three _ _ _
theorem or (a : BitVec 5) (b : BitVec 5) : Statement (.or a b) := lead_of_three _ _ _
theorem xor (a : BitVec 5) (b : BitVec 5) : Statement (.xor a b) := lead_of_three _ _ _
theorem bgen (a : BitVec 5) (imm : BitVec 5) : Statement (.bgen a imm) := lead_of_three _ _ _
theorem ext8d (a : BitVec 5) (b : BitVec 5) : Statement (.ext8d a b) := lead_of_three _ _ _
theorem skp0 (a : BitVec 5) (imm : BitVec 5) : Statement (.skp0 a imm) := lead_of_three _ _ _
theorem skp1 (a : BitVec 5) (imm : BitVec 5) : Statement (.skp1 a imm) := lead_of_three _ _ _
theorem ld (a : BitVec 5) (b : BitVec 5) : Statement (.ld a b) := lead_of_three _ _ _
theorem st (a : BitVec 5) (b : BitVec 5) : Statement (.st a b) := lead_of_three _ _ _
theorem sts8s (imm : BitVec 10) : Statement (.sts8s imm) := lead_of_two _ _
theorem sts16s (imm : BitVec 9) : Statement (.sts16s imm) := lead_of_three _ _ _
theorem ext16d (a : BitVec 5) (b : BitVec 5) : Statement (.ext16d a b) := lead_of_three _ _ _
theorem movhi (a : BitVec 5) (imm : BitVec 5) : Statement (.movhi a imm) := lead_of_three _ _ _
theorem usr0 (a : BitVec 5) (b : BitVec 5) : Statement (.usr0 a b) := lead_of_three _ _ _
theorem ext8s (a : BitVec 5) (imm : BitVec 2) : Statement (.ext8s a imm) := lead_of_three _ _ _
theorem ext16s (a : BitVec 5) (imm : BitVec 1) : Statement (.ext16s a imm) := lead_of_four _ _ _ _
theorem st8s (a : BitVec 5) (imm : BitVec 2) : Statement (.st8s a imm) := lead_of_three _ _ _
theorem st16s (a : BitVec 5) (imm : BitVec 1) : Statement (.st16s a imm) := lead_of_four _ _ _ _
theorem save (imm : BitVec 8) : Statement (.save imm) := lead_of_two _ _
theorem trap (imm : BitVec 6) : Statement (.trap imm) := lead_of_two _ _
theorem not (a : BitVec 5) : Statement (.not a) := lead_of_two _ _
theorem neg (a : BitVec 5) : Statement (.neg a) := lead_of_two _ _
theorem abs (a : BitVec 5) : Statement (.abs a) := lead_of_two _ _
theorem sext8 (a : BitVec 5) : Statement (.sext8 a) := lead_of_two _ _
theorem sext16 (a : BitVec 5) : Statement (.sext16 a) := lead_of_two _ _
theorem rlc (a : BitVec 5) : Statement (.rlc a) := lead_of_two _ _
theorem rrc (a : BitVec 5) : Statement (.rrc a) := lead_of_two _ _
theorem swap (a : BitVec 5) : Statement (.swap a) := lead_of_two _ _
theorem usr1 (a : BitVec 5) : Statement (.usr1 a) := lead_of_two _ _
theorem usr2 (a : BitVec 5) : Statement (.usr2 a) := lead_of_two _ _
theorem usr3 (a : BitVec 5) : Statement (.usr3 a) := lead_of_two _ _
theorem usr4 (a : BitVec 5) : Statement (.usr4 a) := lead_of_two _ _
theorem restore : Statement .restore := rfl
theorem tret (a : BitVec 5) : Statement (.tret a) := lead_of_two _ _
theorem st8d (a : BitVec 5) : Statement (.st8d a) := lead_of_two _ _
theorem st16d (a : BitVec 5) : Statement (.st16d a) := lead_of_two _ _
theorem fill8 (a : BitVec 5) : Statement (.fill8 a) := lead_of_two _ _
theorem fill16 (a : BitVec 5) : Statement (.fill16 a) := lead_of_two _ _
theorem mstep (a : BitVec 5) : Statement (.mstep a) := lead_of_two _ _
theorem mul (a : BitVec 5) : Statement (.mul a) := lead_of_two _ _
theorem skprz (a : BitVec 5) : Statement (.skprz a) := lead_of_two _ _
theorem skps (cond : BitVec 4) : Statement (.skps cond) := lead_of_two _ _
theorem wrctl (a : BitVec 5) : Statement (.wrctl a) := lead_of_two _ _
theorem rdctl (a : BitVec 5) : Statement (.rdctl a) := lead_of_two _ _
theorem skprnz (a : BitVec 5) : Statement (.skprnz a) := lead_of_two _ _
theorem jmp (a : BitVec 5) : Statement (.jmp a) := lead_of_two _ _
theorem call (a : BitVec 5) : Statement (.call a) := lead_of_two _ _
theorem br (imm : BitVec 11) : Statement (.br imm) := lead_of_two _ _
theorem bsr (imm : BitVec 11) : Statement (.bsr imm) := lead_of_two _ _
theorem pfx (imm : BitVec 11) : Statement (.pfx imm) := lead_of_two _ _
theorem stp (p : BitVec 2) (imm : BitVec 5) (a : BitVec 5) : Statement (.stp p imm a) := lead_of_four _ _ _ _
theorem ldp (p : BitVec 2) (imm : BitVec 5) (a : BitVec 5) : Statement (.ldp p imm a) := lead_of_four _ _ _ _
theorem sts (imm : BitVec 8) (a : BitVec 5) : Statement (.sts imm a) := lead_of_three _ _ _
theorem lds (imm : BitVec 8) (a : BitVec 5) : Statement (.lds imm a) := lead_of_three _ _ _

end Sys2Proof.Laws.OpcodeBits
end

