-- ==== Sys2Proof/WellFormed.lean ====
section
/-! DEFINITION. Which instructions are well formed. Every operand field has exactly its encoded width
(30_encoding.md R114, R133), so a field cannot be out of range. What is left are the two kinds of term the
spec encodes but gives no effect: the reserved USR opcodes and the unassigned conditions of SKPS. -/

namespace Sys2Proof

/-- SKPS condition numbers 0x0 to 0xD are assigned; "Codes 0xE and 0xF have no condition" (R275, U6). -/
def conditionAssigned (cond : BitVec 4) : Bool := decide (cond.toNat < 14)

/-- USR0 to USR4 are "Reserved for future use" (R121). -/
def Instr.reserved : Instr → Bool
  | .usr0 _ _ | .usr1 _ | .usr2 _ | .usr3 _ | .usr4 _ => true
  | _ => false

/-- The SKPS condition, where there is one, is assigned. -/
def Instr.conditionOk : Instr → Bool
  | .skps cond => conditionAssigned cond
  | _ => true

/-- An instruction the spec gives an effect. -/
def Instr.wellFormed (i : Instr) : Bool := !i.reserved && i.conditionOk

end Sys2Proof
end

