-- ==== Sys2Proof/Tests/Slice0.lean ====
section
/-! SUPPORT. Tests, expected values from 95_test_vectors.md (the section is named above each group), and, for
every statement with hypotheses, a witness that meets them. -/

namespace Sys2Proof.Tests

open Sys2Proof Sys2Proof.Machine

set_option Elab.async false

/-! ### Small states -/

/-- Flags from the four digits N V Z C, as 95_test_vectors.md writes them. -/
def nvzc (f : BitVec 4) : Flags := { n := f[3], v := f[2], z := f[1], c := f[0] }

/-- 128 registers, window 2, all flags clear, every address backed. -/
def base : State :=
  { State.resetWith { resetConfig with fileSize := .regs128 } (List.replicate 128 resetRegister) (nvzc 0#4) with
    status := { ie := false, ipri := 63#6, cwp := 2#5, flags := nvzc 0#4 } }

/-- `s` with the visible registers given. -/
def withRegs (s : State) (vals : List (RegIdx × Word)) : State := vals.foldl (fun t p => t.putReg p.1 p.2) s

/-- `base` with the visible registers given. -/
def start (vals : List (RegIdx × Word)) : State := withRegs base vals

/-- `base` with flags and registers. -/
def startF (f : BitVec 4) (vals : List (RegIdx × Word)) : State := withRegs (base.setFlags (nvzc f)) vals

/-- `s` right after `PFX k`. -/
def prefixed (k : BitVec 11) (s : State) : State := { s with k := k, pfxf := true }

/-- `s` with a word in memory. -/
def withWord (addr : Nat) (v : Word) (s : State) : State :=
  { s with mem := Memory.writeBytes s.mem addr (wordBytes v) }

/-- `s` with an instruction word in memory. -/
def withHalf (addr w : Nat) (s : State) : State := { s with mem := placeHalf s.mem addr w }

/-- `s` with STATUS given by its 16 bits. -/
def withStatus (w : Half) (s : State) : State := { s with status := Status.ofWord w }

/-- The next state, where there is one. -/
def nextOf : Out → Option State
  | .next t => some t
  | _ => none

/-- The refusal, where there is one. -/
def refusalOf : Out → Option Refusal
  | .refused r => some r
  | _ => none

def regAfter (o : Out) (a : RegIdx) : Option Word := (nextOf o).bind fun t => t.reg? a
def flagsAfter (o : Out) : Option Flags := (nextOf o).map fun t => t.status.flags
def statusAfter (o : Out) : Option Half := (nextOf o).map fun t => t.status.toWord
def istatusAfter (o : Out) : Option Half := (nextOf o).map fun t => t.istatus.toWord
def pcAfter (o : Out) : Option Addr := (nextOf o).map fun t => t.pc
def slotAfter (o : Out) : Option Addr := (nextOf o).bind fun t => t.ds
def wordAfter (o : Out) (addr : Nat) : Option Word := (nextOf o).map fun t => Memory.readWord t.mem addr

/-! ### WellFormed refuses each kind of ill-formed term -/

theorem test_wellFormed_accepts : (Instr.add 1#5 2#5).wellFormed = true ∧ (Instr.skps 0xD#4).wellFormed = true := by
  decide
theorem test_wellFormed_refuses_usr0 : (Instr.usr0 1#5 2#5).wellFormed = false := by decide
theorem test_wellFormed_refuses_usr1 : (Instr.usr1 1#5).wellFormed = false := by decide
theorem test_wellFormed_refuses_usr2 : (Instr.usr2 1#5).wellFormed = false := by decide
theorem test_wellFormed_refuses_usr3 : (Instr.usr3 1#5).wellFormed = false := by decide
theorem test_wellFormed_refuses_usr4 : (Instr.usr4 1#5).wellFormed = false := by decide
theorem test_wellFormed_refuses_condition :
    (Instr.skps 0xE#4).wellFormed = false ∧ (Instr.skps 0xF#4).wellFormed = false := by decide

/-! ### Decoding: the encodings of section 2.1 (and 3.3, 3.5, 3.6), one word for every constructor -/

theorem test_decode_arithmetic :
    decodeWord 0x0013#16 = .ok (.add 19#5 0#5) ∧ decodeWord 0x04D5#16 = .ok (.addi 21#5 6#5) ∧
    decodeWord 0x081B#16 = .ok (.sub 27#5 0#5) ∧ decodeWord 0x0CD5#16 = .ok (.subi 21#5 6#5) ∧
    decodeWord 0x1020#16 = .ok (.cmp 0#5 1#5) ∧ decodeWord 0x171B#16 = .ok (.cmpi 27#5 24#5) ∧
    decodeWord 0x7C46#16 = .ok (.abs 6#5) ∧ decodeWord 0x7C21#16 = .ok (.neg 1#5) ∧
    decodeWord 0x7E81#16 = .ok (.mstep 1#5) ∧ decodeWord 0x7EBD#16 = .ok (.mul 29#5) := by decide

theorem test_decode_logic :
    decodeWord 0x3820#16 = .ok (.and 0#5 1#5) ∧ decodeWord 0x3C20#16 = .ok (.andn 0#5 1#5) ∧
    decodeWord 0x4338#16 = .ok (.or 24#5 25#5) ∧ decodeWord 0x4420#16 = .ok (.xor 0#5 1#5) ∧
    decodeWord 0x7C0C#16 = .ok (.not 12#5) ∧ decodeWord 0x48C7#16 = .ok (.bgen 7#5 6#5) := by decide

theorem test_decode_shift :
    decodeWord 0x1813#16 = .ok (.lsl 19#5 0#5) ∧ decodeWord 0x1CD9#16 = .ok (.lsli 25#5 6#5) ∧
    decodeWord 0x2013#16 = .ok (.lsr 19#5 0#5) ∧ decodeWord 0x24C1#16 = .ok (.lsri 1#5 6#5) ∧
    decodeWord 0x2813#16 = .ok (.asr 19#5 0#5) ∧ decodeWord 0x2CDD#16 = .ok (.asri 29#5 6#5) ∧
    decodeWord 0x7CBC#16 = .ok (.rlc 28#5) ∧ decodeWord 0x7CDC#16 = .ok (.rrc 28#5) := by decide

theorem test_decode_move :
    decodeWord 0x3268#16 = .ok (.mov 8#5 19#5) ∧ decodeWord 0x34EB#16 = .ok (.movi 11#5 7#5) ∧
    decodeWord 0x6EE3#16 = .ok (.movhi 3#5 23#5) ∧ decodeWord 0x7D03#16 = .ok (.swap 3#5) ∧
    decodeWord 0x7C6B#16 = .ok (.sext8 11#5) ∧ decodeWord 0x7C83#16 = .ok (.sext16 3#5) ∧
    decodeWord 0x4F04#16 = .ok (.ext8d 4#5 24#5) ∧ decodeWord 0x7466#16 = .ok (.ext8s 6#5 3#2) ∧
    decodeWord 0x6B9B#16 = .ok (.ext16d 27#5 28#5) ∧ decodeWord 0x74D3#16 = .ok (.ext16s 19#5 1#1) ∧
    decodeWord 0x7E4B#16 = .ok (.fill8 11#5) ∧ decodeWord 0x7E7B#16 = .ok (.fill16 27#5) ∧
    decodeWord 0x9803#16 = .ok (.pfx 3#11) := by decide

theorem test_decode_loadStore :
    decodeWord 0x5B60#16 = .ok (.ld 0#5 27#5) ∧ decodeWord 0x5C1B#16 = .ok (.st 27#5 0#5) ∧
    decodeWord 0xB86B#16 = .ok (.ldp 2#2 3#5 11#5) ∧ decodeWord 0xA863#16 = .ok (.stp 2#2 3#5 3#5) ∧
    decodeWord 0xE069#16 = .ok (.lds 3#8 9#5) ∧ decodeWord 0xC23D#16 = .ok (.sts 17#8 29#5) ∧
    decodeWord 0x7E0B#16 = .ok (.st8d 11#5) ∧ decodeWord 0x7664#16 = .ok (.st8s 4#5 3#2) ∧
    decodeWord 0x7E2B#16 = .ok (.st16d 11#5) ∧ decodeWord 0x76C7#16 = .ok (.st16s 7#5 1#1) ∧
    decodeWord 0x600D#16 = .ok (.sts8s 13#10) ∧ decodeWord 0x640E#16 = .ok (.sts16s 7#9) := by decide

theorem test_decode_control :
    decodeWord 0x8003#16 = .ok (.br 3#11) ∧ decodeWord 0x8810#16 = .ok (.bsr 0x10#11) ∧
    decodeWord 0x7FCF#16 = .ok (.jmp 15#5) ∧ decodeWord 0x7FE0#16 = .ok (.call 0#5) ∧
    decodeWord 0x50EB#16 = .ok (.skp0 11#5 7#5) ∧ decodeWord 0x56AB#16 = .ok (.skp1 11#5 21#5) ∧
    decodeWord 0x7ECB#16 = .ok (.skprz 11#5) ∧ decodeWord 0x7F43#16 = .ok (.skprnz 3#5) ∧
    decodeWord 0x7EE3#16 = .ok (.skps 3#4) := by decide

theorem test_decode_system :
    decodeWord 0x7817#16 = .ok (.save 23#8) ∧ decodeWord 0x7DA0#16 = .ok .restore ∧
    decodeWord 0x7905#16 = .ok (.trap 5#6) ∧ decodeWord 0x7DCF#16 = .ok (.tret 15#5) ∧
    decodeWord 0x7F27#16 = .ok (.rdctl 7#5) ∧ decodeWord 0x7F07#16 = .ok (.wrctl 7#5) := by decide

/-- The reserved rows of 30_encoding.md R119: `011100 BBBBB AAAAA` and `011111 01xxx AAAAA`. -/
theorem test_decode_reserved :
    decodeWord 0b0111000001000001#16 = .ok (.usr0 1#5 2#5) ∧ decodeWord 0b0111110100100001#16 = .ok (.usr1 1#5) ∧
    decodeWord 0b0111110101000010#16 = .ok (.usr2 2#5) ∧ decodeWord 0b0111110101100011#16 = .ok (.usr3 3#5) ∧
    decodeWord 0b0111110110000100#16 = .ok (.usr4 4#5) := by decide

/-- Section 3.5, "Not defined (refuse)": SKPS with bit 4 set, and the blank row 10010. -/
theorem test_decode_refuses :
    decodeWord 0x7EF0#16 = .error .nonzeroFixedBits ∧ decodeWord 0x9000#16 = .error .unassigned := by decide

/-- An instruction is one half-word, low byte first (20_memory.md R81). -/
theorem test_decode_bytes :
    decodeBytes [0x13#8, 0x00#8, 0xFF#8] = .ok (.add 19#5 0#5, [0xFF#8]) ∧
    decodeTableWord 16 0x5C1B = some (.st 27#5 0#5) := by decide

/-! ### Arithmetic (section 3.1) -/

theorem test_add_carry :
    regAfter (exec (.add 1#5 2#5) (start [(1#5, 0xFFFFFFFF#32), (2#5, 1#32)])) 1#5 = some 0#32 ∧
    flagsAfter (exec (.add 1#5 2#5) (start [(1#5, 0xFFFFFFFF#32), (2#5, 1#32)])) = some (nvzc 0b0011#4) := by
  decide +kernel
theorem test_add_overflow :
    flagsAfter (exec (.add 1#5 2#5) (start [(1#5, 0x80000000#32), (2#5, 0xFFFFFFFF#32)])) =
      some (nvzc 0b0101#4) := by decide +kernel
theorem test_addi_prefixed :
    regAfter (exec (.addi 3#5 0x14#5) (prefixed 0x091#11 (start [(3#5, 0x46#32)]))) 3#5 = some 0x127A#32 := by
  decide +kernel
theorem test_sub_borrow :
    regAfter (exec (.sub 1#5 2#5) (start [(1#5, 3#32), (2#5, 5#32)])) 1#5 = some 0xFFFFFFFE#32 ∧
    flagsAfter (exec (.sub 1#5 2#5) (start [(1#5, 3#32), (2#5, 5#32)])) = some (nvzc 0b1001#4) := by decide +kernel
theorem test_sub_overflow :
    flagsAfter (exec (.sub 1#5 2#5) (start [(1#5, 0x7FFFFFFF#32), (2#5, 0xFFFFFFFF#32)])) =
      some (nvzc 0b1101#4) := by decide +kernel
theorem test_subi_prefixed :
    regAfter (exec (.subi 11#5 8#5) (prefixed 31#11 (start [(11#5, 0x3E9#32)]))) 11#5 = some 1#32 := by decide +kernel
theorem test_cmp_keeps_register :
    regAfter (exec (.cmp 0#5 1#5) (start [(0#5, 0x80000000#32), (1#5, 0x7FFFFFFF#32)])) 0#5 = some 0x80000000#32 ∧
    flagsAfter (exec (.cmp 0#5 1#5) (start [(0#5, 0x80000000#32), (1#5, 0x7FFFFFFF#32)])) =
      some (nvzc 0b0100#4) := by decide +kernel
theorem test_cmpi_less :
    flagsAfter (exec (.cmpi 27#5 24#5) (start [(27#5, 0x17#32)])) = some (nvzc 0b1001#4) := by decide +kernel
theorem test_abs_negative :
    regAfter (exec (.abs 6#5) (startF 0b1010#4 [(6#5, 0xFFFFFFFB#32)])) 6#5 = some 5#32 ∧
    flagsAfter (exec (.abs 6#5) (startF 0b1010#4 [(6#5, 0xFFFFFFFB#32)])) = some (nvzc 0b1010#4) := by decide +kernel
theorem test_neg_most_negative :
    regAfter (exec (.neg 1#5) (start [(1#5, 0x80000000#32)])) 1#5 = some 0x80000000#32 := by decide +kernel
theorem test_mstep_adds :
    regAfter (exec (.mstep 1#5) (start [(0#5, 0x80000000#32), (1#5, 3#32)])) 0#5 = some 3#32 := by decide +kernel
theorem test_mstep_r0_itself :
    regAfter (exec (.mstep 0#5) (start [(0#5, 0x80000001#32)])) 0#5 = some 0x80000003#32 := by decide +kernel
theorem test_mul_low_halves :
    regAfter (exec (.mul 1#5) (start [(0#5, 0x12340003#32), (1#5, 0xABCD0005#32)])) 0#5 = some 0xF#32 := by
  decide +kernel
theorem test_mul_unsigned :
    regAfter (exec (.mul 1#5) (start [(0#5, 0xFFFF#32), (1#5, 0xFFFF#32)])) 0#5 = some 0xFFFE0001#32 := by
  decide +kernel

/-! ### Logic, shifts, rotates (section 3.2) -/

theorem test_and_keeps_v_and_c :
    regAfter (exec (.and 0#5 1#5) (startF 0b0101#4 [(0#5, 0xF0F0F0F0#32), (1#5, 0xFF00FF00#32)])) 0#5 =
      some 0xF000F000#32 ∧
    flagsAfter (exec (.and 0#5 1#5) (startF 0b0101#4 [(0#5, 0xF0F0F0F0#32), (1#5, 0xFF00FF00#32)])) =
      some (nvzc 0b1101#4) := by decide +kernel
/-- `PFX 0` selects the immediate form: the B field 3 is the constant 3. -/
theorem test_and_after_pfx_zero :
    regAfter (exec (.and 0#5 3#5) (prefixed 0#11 (start [(0#5, 0xFFFFFFFF#32), (3#5, 0#32)]))) 0#5 =
      some 3#32 := by decide +kernel
theorem test_andn_prefixed :
    regAfter (exec (.andn 0#5 0#5) (prefixed 512#11 (start [(0#5, 0xFFFFFFFF#32)]))) 0#5 = some 0xFFFFBFFF#32 := by
  decide +kernel
theorem test_or_prefixed :
    regAfter (exec (.or 24#5 5#5) (prefixed 104#11 (start [(24#5, 0#32)]))) 24#5 = some 0xD05#32 := by decide +kernel
theorem test_xor_itself :
    regAfter (exec (.xor 0#5 0#5) (startF 0b1100#4 [(0#5, 0x12345678#32)])) 0#5 = some 0#32 ∧
    flagsAfter (exec (.xor 0#5 0#5) (startF 0b1100#4 [(0#5, 0x12345678#32)])) = some (nvzc 0b0110#4) := by
  decide +kernel
theorem test_not_keeps_flags :
    regAfter (exec (.not 12#5) (startF 0b0010#4 [(12#5, 0#32)])) 12#5 = some 0xFFFFFFFF#32 ∧
    flagsAfter (exec (.not 12#5) (startF 0b0010#4 [(12#5, 0#32)])) = some (nvzc 0b0010#4) := by decide +kernel
theorem test_lsl_count_mod_32 :
    regAfter (exec (.lsl 19#5 0#5) (start [(19#5, 0x80000001#32), (0#5, 0x24#32)])) 19#5 = some 0x10#32 := by
  decide +kernel
theorem test_lsli_ignores_prefix :
    regAfter (exec (.lsli 25#5 1#5) (prefixed 0x7FF#11 (start [(25#5, 1#32)]))) 25#5 = some 2#32 := by decide +kernel
theorem test_lsr_count_mod_32 :
    regAfter (exec (.lsr 19#5 0#5) (start [(19#5, 0x80000010#32), (0#5, 0xFFFFFFE4#32)])) 19#5 =
      some 0x08000001#32 := by decide +kernel
theorem test_lsri_fills_zero :
    regAfter (exec (.lsri 1#5 6#5) (start [(1#5, 0x80000040#32)])) 1#5 = some 0x02000001#32 := by decide +kernel
theorem test_asr_fills_sign :
    regAfter (exec (.asr 19#5 0#5) (start [(19#5, 0x80000000#32), (0#5, 0x1F#32)])) 19#5 = some 0xFFFFFFFF#32 := by
  decide +kernel
theorem test_asri_fills_sign :
    regAfter (exec (.asri 29#5 6#5) (start [(29#5, 0xFFFFF000#32)])) 29#5 = some 0xFFFFFFC0#32 := by decide +kernel
theorem test_rlc_through_carry :
    regAfter (exec (.rlc 28#5) (startF 0b1111#4 [(28#5, 0x40000001#32)])) 28#5 = some 0x80000003#32 ∧
    flagsAfter (exec (.rlc 28#5) (startF 0b1111#4 [(28#5, 0x40000001#32)])) = some (nvzc 0b1110#4) := by
  decide +kernel
theorem test_rrc_through_carry :
    regAfter (exec (.rrc 28#5) (startF 0b1111#4 [(28#5, 2#32)])) 28#5 = some 0x80000001#32 ∧
    flagsAfter (exec (.rrc 28#5) (startF 0b1111#4 [(28#5, 2#32)])) = some (nvzc 0b1110#4) := by decide +kernel
theorem test_bgen_top_bit :
    regAfter (exec (.bgen 7#5 31#5) (start [])) 7#5 = some 0x80000000#32 := by decide +kernel

/-! ### Moves, extension, extraction, fill, prefix (section 3.3) -/

theorem test_mov_copies :
    regAfter (exec (.mov 8#5 19#5) (start [(8#5, 0#32), (19#5, 0xCAFEBABE#32)])) 8#5 = some 0xCAFEBABE#32 := by
  decide +kernel
theorem test_movi_prefixed :
    regAfter (exec (.movi 11#5 31#5) (prefixed 0x7FF#11 (start []))) 11#5 = some 0xFFFF#32 := by decide +kernel
theorem test_movhi_keeps_low_half :
    regAfter (exec (.movhi 3#5 4#5) (prefixed 3#11 (start [(3#5, 0xAAAA5555#32)]))) 3#5 = some 0x00645555#32 := by
  decide +kernel
theorem test_swap_halves :
    regAfter (exec (.swap 3#5) (start [(3#5, 0x12345678#32)])) 3#5 = some 0x56781234#32 := by decide +kernel
theorem test_sext8 :
    regAfter (exec (.sext8 11#5) (start [(11#5, 0x80#32)])) 11#5 = some 0xFFFFFF80#32 := by decide +kernel
theorem test_sext16 :
    regAfter (exec (.sext16 3#5) (start [(3#5, 0xFFFF7FFF#32)])) 3#5 = some 0x7FFF#32 := by decide +kernel
theorem test_ext8d_lane :
    regAfter (exec (.ext8d 4#5 24#5) (start [(4#5, 0x44332211#32), (24#5, 0x1203#32)])) 4#5 = some 0x44#32 := by
  decide +kernel
theorem test_ext8d_itself :
    regAfter (exec (.ext8d 4#5 4#5) (start [(4#5, 0x44332211#32)])) 4#5 = some 0x22#32 := by decide +kernel
theorem test_ext8s_lane :
    regAfter (exec (.ext8s 6#5 2#2) (start [(6#5, 0x44332211#32)])) 6#5 = some 0x33#32 := by decide +kernel
theorem test_ext16d_ignores_bit_0 :
    regAfter (exec (.ext16d 27#5 28#5) (start [(27#5, 0x44332211#32), (28#5, 0x1201#32)])) 27#5 =
      some 0x2211#32 := by decide +kernel
theorem test_ext16s_upper :
    regAfter (exec (.ext16s 19#5 1#1) (start [(19#5, 0x44332211#32)])) 19#5 = some 0x4433#32 := by decide +kernel
theorem test_fill8_into_r0 :
    regAfter (exec (.fill8 11#5) (start [(0#5, 0#32), (11#5, 0x154#32)])) 0#5 = some 0x54545454#32 := by
  decide +kernel
theorem test_fill16_into_r0 :
    regAfter (exec (.fill16 27#5) (start [(0#5, 0#32), (27#5, 0xABCD1234#32)])) 0#5 = some 0x12341234#32 := by
  decide +kernel
theorem test_pfx_loads_k :
    (nextOf (exec (.pfx 3#11) base)).map (fun t => (t.k, t.pfxf, t.pc)) = some (3#11, true, 0x1002#33) := by
  decide +kernel
/-- Section 3.5: `PFX 1 ; PFX 2` and a PFX in a delay slot are not defined. -/
theorem test_pfx_refused :
    refusalOf (exec (.pfx 2#11) (prefixed 1#11 base)) = some .consecutivePrefix ∧
    refusalOf (exec (.pfx 1#11) { base with ds := some 0x1200#33 }) = some .barredInDelaySlot := by decide +kernel

/-! ### Loads and stores (section 3.4) -/

theorem test_ld_negative_offset :
    regAfter (exec (.ld 0#5 27#5) (prefixed 0x7FF#11 (withWord 0x2000 0xA0000000#32 (start [(27#5, 0x2004#32)])))) 0#5 =
      some 0xA0000000#32 := by decide +kernel
theorem test_ld_ignores_low_bits :
    regAfter (exec (.ld 0#5 27#5) (withWord 0x2004 0xA0000001#32 (start [(27#5, 0x2007#32)]))) 0#5 =
      some 0xA0000001#32 := by decide +kernel
theorem test_ldp_offset :
    regAfter (exec (.ldp 2#2 3#5 11#5) (withWord 0x200C 0xA0000003#32 (start [(18#5, 0x2000#32)]))) 11#5 =
      some 0xA0000003#32 := by decide +kernel
theorem test_ldp_signed_prefixed_offset :
    regAfter (exec (.ldp 0#2 31#5 11#5) (prefixed 0x7FF#11 (withWord 0x2000 0xA0000000#32
      (start [(16#5, 0x2004#32)])))) 11#5 = some 0xA0000000#32 := by decide +kernel
theorem test_lds_aligns_sum :
    regAfter (exec (.lds 0#8 9#5) (withWord 0x2004 0xA0000001#32 (start [(14#5, 0x2006#32)]))) 9#5 =
      some 0xA0000001#32 := by decide +kernel
theorem test_lds_ignores_prefix :
    regAfter (exec (.lds 3#8 9#5) (prefixed 5#11 (withWord 0x200C 0xA0000003#32 (start [(14#5, 0x2000#32)])))) 9#5 =
      some 0xA0000003#32 := by decide +kernel
theorem test_st_little_endian :
    (nextOf (exec (.st 27#5 0#5) (start [(0#5, 0x2002#32), (27#5, 0x11223344#32)]))).map (fun t =>
      [0x2000, 0x2001, 0x2002, 0x2003].map fun a => Memory.read t.mem a) =
      some [0x44#8, 0x33#8, 0x22#8, 0x11#8] := by decide +kernel
theorem test_st_prefixed :
    wordAfter (exec (.st 27#5 0#5) (prefixed 3#11 (start [(0#5, 0x2000#32), (27#5, 0x11223344#32)]))) 0x200C =
      some 0x11223344#32 := by decide +kernel
theorem test_stp_prefixed :
    wordAfter (exec (.stp 2#2 6#5 3#5) (prefixed 3#11 (start [(18#5, 0x2000#32), (3#5, 0x55667788#32)]))) 0x2198 =
      some 0x55667788#32 := by decide +kernel
theorem test_sts_offset :
    wordAfter (exec (.sts 17#8 29#5) (start [(14#5, 0x1FC0#32), (29#5, 0x99AABBCC#32)])) 0x2004 =
      some 0x99AABBCC#32 := by decide +kernel
theorem test_st8d_prefixed_lane :
    wordAfter (exec (.st8d 11#5) (prefixed 5#11 (withWord 0x2014 0xA0000005#32
      (start [(11#5, 0x2001#32), (0#5, 0x44332211#32)])))) 0x2014 = some 0xA0002205#32 := by decide +kernel
theorem test_st8s_lane_from_immediate :
    wordAfter (exec (.st8s 4#5 3#2) (withWord 0x2000 0xA0000000#32
      (start [(4#5, 0x2002#32), (0#5, 0x44332211#32)]))) 0x2000 = some 0x44000000#32 := by decide +kernel
theorem test_st16d_ignores_bit_0 :
    wordAfter (exec (.st16d 11#5) (withWord 0x2000 0xA0000000#32
      (start [(11#5, 0x2003#32), (0#5, 0x44332211#32)]))) 0x2000 = some 0x44330000#32 := by decide +kernel
theorem test_st16s_lane :
    wordAfter (exec (.st16s 7#5 0#1) (withWord 0x2000 0xA0000000#32
      (start [(7#5, 0x2000#32), (0#5, 0x44332211#32)]))) 0x2000 = some 0xA0002211#32 := by decide +kernel
theorem test_sts8s_unaligned_sp :
    wordAfter (exec (.sts8s 13#10) (withWord 0x200C 0xA0000003#32
      (start [(14#5, 0x2002#32), (0#5, 0x44332211#32)]))) 0x200C = some 0xA0002203#32 := by decide +kernel
theorem test_sts16s_lane :
    wordAfter (exec (.sts16s 7#9) (withWord 0x200C 0xA0000003#32
      (start [(14#5, 0x2000#32), (0#5, 0x44332211#32)]))) 0x200C = some 0x44330003#32 := by decide +kernel

/-! ### Control transfer and skips (section 3.5) -/

theorem test_br_backwards :
    slotAfter (exec (.br 0x400#11) base) = some 0x0802#33 ∧ pcAfter (exec (.br 0x400#11) base) = some 0x1002#33 := by
  decide +kernel
/-- The delay slot then goes to the target. -/
theorem test_delay_slot_ends_at_target :
    pcAfter (exec (.addi 1#5 1#5) { start [(1#5, 0#32)] with pc := 0x1002#33, ds := some 0x1008#33 }) =
      some 0x1008#33 := by decide +kernel
theorem test_bsr_links :
    slotAfter (exec (.bsr 0x10#11) base) = some 0x1022#33 ∧ regAfter (exec (.bsr 0x10#11) base) 15#5 = some 0x802#32 := by
  decide +kernel
theorem test_jmp_33_bits :
    slotAfter (exec (.jmp 1#5) (start [(1#5, 0x80000900#32)])) = some 0x100001200#33 := by decide +kernel
theorem test_call_o7_reads_before_linking :
    slotAfter (exec (.call 15#5) (start [(15#5, 0x900#32)])) = some 0x1200#33 ∧
    regAfter (exec (.call 15#5) (start [(15#5, 0x900#32)])) 15#5 = some 0x802#32 := by decide +kernel
theorem test_skp0_skips :
    pcAfter (exec (.skp0 11#5 7#5) (start [(11#5, 0#32)])) = some 0x1004#33 ∧
    pcAfter (exec (.skp0 11#5 7#5) (start [(11#5, 0x80#32)])) = some 0x1002#33 := by decide +kernel
theorem test_skp1_skips_a_prefix_pair :
    pcAfter (exec (.skp1 11#5 31#5) (withHalf 0x1002 0x9801 (start [(11#5, 0x80000000#32)]))) = some 0x1006#33 := by
  decide +kernel
theorem test_skp1_executes :
    pcAfter (exec (.skp1 11#5 21#5) (start [(11#5, 0xFFDFFFFF#32)])) = some 0x1002#33 := by decide +kernel
theorem test_skprz :
    pcAfter (exec (.skprz 11#5) (start [(11#5, 0#32)])) = some 0x1004#33 ∧
    pcAfter (exec (.skprz 11#5) (start [(11#5, 0x80000000#32)])) = some 0x1002#33 := by decide +kernel
theorem test_skprnz :
    pcAfter (exec (.skprnz 3#5) (start [(3#5, 1#32)])) = some 0x1004#33 ∧
    pcAfter (exec (.skprnz 3#5) (start [(3#5, 0#32)])) = some 0x1002#33 := by decide +kernel
/-- The row `CMP 1,0x80000000` of the SKPS table (flags 1101): conditions 0x0 to 0xD in order. -/
theorem test_skps_conditions :
    (List.range 14).map (fun n => conditionHolds (BitVec.ofNat 4 n) (nvzc 0b1101#4)) =
      [true, false, false, true, true, false, true, false, false, true, true, false, true, false].map some := by
  decide
theorem test_skps_skips_and_refuses :
    pcAfter (exec (.skps 3#4) (startF 0#4 [])) = some 0x1004#33 ∧
    refusalOf (exec (.skps 0xE#4) base) = some .unassignedCondition ∧
    refusalOf (exec (.skps 0xF#4) base) = some .unassignedCondition := by decide +kernel

/-! ### System instructions and exceptions (section 3.6), at CWP 14 of 256 registers -/

/-- The reset configuration with an all-zero register file, STATUS as given, and vector entry `n` as section 3.6
sets it. -/
def sys (status : Half) (n : Nat) : State :=
  withWord (0x100 + 4 * n) (BitVec.ofNat 32 ((0x2000 + 0x40 * n) / 2))
    (withStatus status { State.reset with regs := List.replicate 256 0#32 })

theorem test_save_opens :
    statusAfter (exec (.save 23#8) (withRegs (sys 0xFEE0#16 1) [(14#5, 0x8000#32)])) = some 0xFED0#16 ∧
    regAfter (exec (.save 23#8) (withRegs (sys 0xFEE0#16 1) [(14#5, 0x8000#32)])) 14#5 = some 0x7FA4#32 := by
  decide +kernel
theorem test_save_underflow :
    (nextOf (exec (.save 4#8) (withRegs (sys 0x8410#16 1) [(14#5, 0x8000#32)]))).map (fun t =>
      (t.status.toWord, t.istatus.toWord, t.reg? 14#5, t.reg? 15#5, t.pc)) =
      some (0x0200#16, 0x8400#16, some 0x7FF0#32, some 0x801#32, 0x2040#33) := by decide +kernel
theorem test_restore_closes :
    statusAfter (exec .restore (sys 0xFE50#16 2)) = some 0xFE60#16 := by decide +kernel
theorem test_restore_overflow :
    (nextOf (exec .restore (sys 0x86E5#16 2))).map (fun t =>
      (t.status.toWord, t.istatus.toWord, t.reg? 15#5, t.pc)) =
      some (0x04E5#16, 0x86F5#16, some 0x801#32, 0x2080#33) := by decide +kernel
theorem test_trap_enters :
    (nextOf (exec (.trap 5#6) (sys 0x7EEA#16 5))).map (fun t =>
      (t.status.toWord, t.istatus.toWord, t.reg? 15#5, t.pc)) =
      some (0x0ADA#16, 0x7EEA#16, some 0x801#32, 0x2140#33) := by decide +kernel
/-- `TRAP` with CWP = 0: %o7 is physical register 511, outside a file of 256. With CWP = HI_MAX + 2 the handler's window
15 is outside (60_exceptions.md R340). -/
theorem test_trap_without_window :
    refusalOf (exec (.trap 5#6) (sys 0xFE00#16 5)) = some (.outsideRegisterFile 511) ∧
    refusalOf (exec (.trap 5#6) (sys 0xFF00#16 5)) = some (.handlerWindowOutsideFile 15#5) := by decide +kernel
theorem test_tret_returns :
    (nextOf (exec (.tret 1#5) (withRegs { sys 0x0ADA#16 0 with istatus := Status.ofWord 0xFEEA#16 }
      [(1#5, 0x80000801#32)]))).map (fun t => (t.status.toWord, t.pc, t.ds)) =
      some (0xFEEA#16, 0x100001002#33, none) := by decide +kernel
/-- The bits above the register are free; the test holds for every value of them. -/
theorem test_rdctl_values (free : Word) :
    (controlValue (sys 0x7EE5#16 0) free .status).extractLsb' 0 16 = 0x7EE5#16 ∧
    (controlValue (sys 0x7EE5#16 0) free .wvalid).extractLsb' 0 10 = 0x1C1#10 :=
  ⟨BitVec.extractLsb'_append_eq_right, BitVec.extractLsb'_append_eq_right⟩
theorem test_rdctl_completes_and_refuses :
    pcAfter (exec (.rdctl 7#5) (prefixed 8#11 base)) = some 0x1002#33 ∧
    refusalOf (exec (.rdctl 7#5) (prefixed 3#11 base)) = some (.undefinedControlRegister 3) := by decide +kernel
theorem test_wrctl_status_before_nop :
    statusAfter (exec (.wrctl 7#5) (withRegs (sys 0x7EE0#16 0) [(7#5, 0xFFFF8E5A#32)])) = some 0x8E5A#16 ∧
    refusalOf (exec (.wrctl 7#5) (withHalf 0x1002 0x0421 (withRegs (sys 0x7EE0#16 0) [(7#5, 0xFFFF8E5A#32)]))) = some .statusWriteWithoutNop := by decide +kernel
theorem test_wrctl_others :
    istatusAfter (exec (.wrctl 7#5) (prefixed 1#11 (withRegs (sys 0x7EE0#16 0) [(7#5, 0x1234ABCD#32)]))) =
      some 0xABCD#16 ∧
    statusAfter (exec (.wrctl 7#5) (prefixed 8#11 (sys 0xFEE5#16 0))) = some 0x7EE5#16 ∧
    statusAfter (exec (.wrctl 7#5) (prefixed 9#11 (sys 0x7EE5#16 0))) = some 0xFEE5#16 := by decide +kernel
theorem test_usr_refused :
    refusalOf (exec (.usr0 1#5 2#5) base) = some (.reservedOpcode "USR0") ∧
    refusalOf (exec (.usr1 1#5) base) = some (.reservedOpcode "USR1") ∧
    refusalOf (exec (.usr2 1#5) base) = some (.reservedOpcode "USR2") ∧
    refusalOf (exec (.usr3 1#5) base) = some (.reservedOpcode "USR3") ∧
    refusalOf (exec (.usr4 1#5) base) = some (.reservedOpcode "USR4") := by decide +kernel

/-! ### One step -/

/-- `ADDI %g1,1` at pc, with the request given in this step (the table at the end of section 3.6). -/
def interrupted (status : Half) (number : BitVec 6) (n : Nat) : State :=
  { withHalf 0x1000 0x0421 (sys status n) with irqs := [{ irq := true, number := number }] }

theorem test_interrupt_accepted :
    (nextOf (step (interrupted 0x8CE0#16 5#6 5))).map (fun t =>
      (t.status.toWord, t.istatus.toWord, t.reg? 15#5, t.pc)) =
      some (0x0AD0#16, 0x8CE0#16, some 0x800#32, 0x2140#33) := by decide +kernel
theorem test_interrupt_not_below_ipri :
    regAfter (step (interrupted 0x8AE0#16 5#6 5)) 1#5 = some 1#32 ∧
    statusAfter (step (interrupted 0x8AE0#16 5#6 5)) = some 0x8AE0#16 := by decide +kernel
theorem test_step_runs_placed_word :
    regAfter (step (State.reset.withFetchWord 16 0x34EB)) 11#5 = some 7#32 := by decide +kernel
/-- The look at an unbacked half-word is refused (20_memory.md R93). -/
theorem test_step_refuses_unbacked :
    refusalOf (step { base with pc := 0x2000#33, cfg := { base.cfg with map := [{ base := 0, size := 0x2001 }] } }) =
      some (.unbackedAddress 0x2000) := by decide +kernel
/-- A half-word stored to since the last control transfer has no defined fetch (20_memory.md R98). -/
theorem test_step_refuses_stale :
    refusalOf (step { base with stored := [0x1001] }) = some (.staleFetch 0x1000) := by decide +kernel
theorem test_step_refuses_by_name :
    refusalOf (step (withHalf 0x1000 0x9000 base)) = some (.unassignedEncoding 0x9000#16) ∧
    refusalOf (step (withHalf 0x1000 0x7EF0 base)) = some (.nonzeroFixedBits 0x7EF0#16) := by decide +kernel

/-! ### Witnesses: a state and operands that meet the hypotheses of each statement, clause by clause -/

/-- Does the outcome go on? -/
def goesOn (o : Out) : Bool := (nextOf o).isSome

theorem witness_EncodeOfDecodedWordIsIdentity : decodeWord 0x0013#16 = .ok (.add 19#5 0#5) := by decide

theorem witness_StepRunsTheDecodedInstruction :
    base.acceptsIrq = false ∧ bytesBacked base.cfg base.pc.toNat 2 = true ∧ base.stale base.pc.toNat = false ∧
    HalfAt base.mem base.pc.toNat 0x3000#16 ∧ decodeWord 0x3000#16 = .ok (.mov 0#5 0#5) := by
  unfold HalfAt; decide +kernel

/-- The interrupt state, its priority just below IPRI. -/
theorem witness_StepTakesAcceptedInterrupt :
    (interrupted 0x8CE0#16 5#6 5).irqs = { irq := true, number := 5#6 } :: [] ∧
    (interrupted 0x8CE0#16 5#6 5).status.ie = true ∧
    (5#6).toNat < (interrupted 0x8CE0#16 5#6 5).status.ipri.toNat ∧
    (interrupted 0x8CE0#16 5#6 5).pfxf = false ∧ (interrupted 0x8CE0#16 5#6 5).ds = none ∧
    HandlerWindow (interrupted 0x8CE0#16 5#6 5) (interrupted 0x8CE0#16 5#6 5).status.cwp ∧
    VectorBacked (interrupted 0x8CE0#16 5#6 5) 5#6 := by
  unfold HandlerWindow InFile VectorBacked; decide +kernel

/-- Each way a request is masked: IE = 0; the number equal to IPRI; after a PFX; before a delay slot. -/
theorem witness_MaskedInterruptHasNoEffect :
    (interrupted 0x0CE0#16 5#6 5).irqs = { irq := true, number := 5#6 } :: [] ∧
    (interrupted 0x0CE0#16 5#6 5).status.ie = false ∧
    (interrupted 0x8AE0#16 5#6 5).status.ipri.toNat ≤ (5#6).toNat ∧
    (prefixed 3#11 (interrupted 0x8CE0#16 5#6 5)).pfxf = true ∧
    { interrupted 0x8CE0#16 5#6 5 with ds := some 0x1800#33 }.ds ≠ none := by decide +kernel

/-- `base` with memory from 0 to 0x1000 only: the second byte at pc is outside. -/
def shortMap : State := { base with cfg := { base.cfg with map := [{ base := 0, size := 0x1001 }] } }

theorem witness_StepStopsWhatItCannotFetch :
    (shortMap.acceptsIrq = false ∧ bytesBacked shortMap.cfg shortMap.pc.toNat 2 = false) ∧
    (bytesBacked base.cfg base.pc.toNat 2 = true ∧
      { base with stored := [0x1001] }.stale base.pc.toNat = true ∧ base.stale base.pc.toNat = false) ∧
    (HalfAt (withHalf 0x1000 0x9000 base).mem base.pc.toNat 0x9000#16 ∧
      decodeWord 0x9000#16 = .error .unassigned) ∧
    (HalfAt (withHalf 0x1000 0x7EF0 base).mem base.pc.toNat 0x7EF0#16 ∧
      decodeWord 0x7EF0#16 = .error .nonzeroFixedBits) := by
  unfold HalfAt; decide +kernel

theorem witness_ResetLeavesStatedValues :
    ({ resetConfig with fileSize := .regs512 } : Config).wf = true ∧
    (List.replicate 512 resetRegister).length = ({ resetConfig with fileSize := .regs512 } : Config).fileSize.nreg := by
  decide +kernel

theorem witness_ResetMeetsInvariant :
    ResetState (State.resetWith { resetConfig with fileSize := .regs128 } (List.replicate 128 1#32) (nvzc 0b1010#4)) := by
  constructor <;> decide +kernel

/-- The smoke state meets the invariant and its step goes on. -/
theorem witness_InvariantKeptByEveryStep : Invariant base ∧ goesOn (step base) = true := by
  refine ⟨⟨?_, ?_, ?_, ?_, ?_, ?_, ?_⟩, ?_⟩
  · decide +kernel
  · intro t h
    have h' : (none : Option Addr) = some t := h
    cases h'
  all_goals decide +kernel

/-- Every instruction but the reserved ones goes on from one state, so every row of the tables
`FlagWriterTable`, `WindowPointerWriters`, `PrefixRegisterAfterEveryInstruction`,
`ProgramCounterAfterEveryInstruction` and `MemoryChangedOnlyByStores` (the rows that store nothing) is met. -/
theorem witness_everyInstructionGoesOn :
    ([.add 1#5 2#5, .addi 1#5 1#5, .sub 1#5 2#5, .subi 1#5 1#5, .cmp 1#5 2#5, .cmpi 1#5 1#5, .lsl 1#5 2#5, .lsli 1#5 1#5,
      .lsr 1#5 2#5, .lsri 1#5 1#5, .asr 1#5 2#5, .asri 1#5 1#5, .mov 1#5 2#5, .movi 1#5 1#5, .and 1#5 2#5, .andn 1#5 2#5,
      .or 1#5 2#5, .xor 1#5 2#5, .bgen 1#5 1#5, .ext8d 1#5 2#5, .skp0 1#5 1#5, .skp1 1#5 0#5, .ld 1#5 2#5, .st 1#5 2#5,
      .sts8s 1#10, .sts16s 1#9, .ext16d 1#5 2#5, .movhi 1#5 1#5, .ext8s 1#5 1#2, .ext16s 1#5 1#1, .st8s 1#5 1#2,
      .st16s 1#5 1#1, .save 1#8, .trap 1#6, .not 1#5, .neg 1#5, .abs 1#5, .sext8 1#5, .sext16 1#5, .rlc 1#5, .rrc 1#5,
      .swap 1#5, .restore, .tret 1#5, .st8d 1#5, .st16d 1#5, .fill8 1#5, .fill16 1#5, .mstep 1#5, .mul 1#5, .skprz 1#5,
      .skps 1#4, .wrctl 1#5, .rdctl 1#5, .skprnz 1#5, .jmp 1#5, .call 1#5, .br 1#11, .bsr 1#11, .pfx 1#11,
      .stp 1#2 1#5 1#5, .ldp 1#2 1#5 1#5, .sts 1#8 1#5, .lds 1#8 1#5] : List Instr).all
      (fun i => goesOn (exec i base)) = true := by decide +kernel

/-- WRCTL with K other than 0 goes on, and so does RESTORE at HI_LIMIT with exceptions enabled. -/
theorem witness_FlagWriterTable_and_WindowPointerWriters :
    goesOn (exec (.wrctl 1#5) (prefixed 1#11 base)) = true ∧
    goesOn (exec .restore (sys 0x86E0#16 2)) = true ∧
    ((sys 0x86E0#16 2).status.cwp = (sys 0x86E0#16 2).wvalid.hi ∧ (sys 0x86E0#16 2).status.ie = true ∧
      2 < (sys 0x86E0#16 2).status.ipri.toNat) ∧
    ((interrupted 0x8CE0#16 5#6 5).acceptsIrq = true ∧ goesOn (step (interrupted 0x8CE0#16 5#6 5)) = true) := by
  decide +kernel

theorem witness_PrefixRegisterAfterEveryInstruction :
    goesOn (exec (.pfx 1#11) base) = true ∧ goesOn (exec (.mov 1#5 2#5) (prefixed 3#11 base)) = true := by
  decide +kernel

/-- Also: a skip taken before a PFX and before another instruction, and the two window exceptions. -/
theorem witness_ProgramCounterAfterEveryInstruction_skips_and_exceptions :
    goesOn (exec (.skp1 11#5 31#5) (withHalf 0x1002 0x9801 (start [(11#5, 0x80000000#32)]))) = true ∧
    NextIsPrefix (withHalf 0x1002 0x9801 (start [(11#5, 0x80000000#32)])) ∧
    goesOn (exec (.skp1 11#5 31#5) (start [(11#5, 0x80000000#32)])) = true ∧
    ¬ NextIsPrefix (start [(11#5, 0x80000000#32)]) ∧
    goesOn (exec (.save 4#8) (sys 0x8410#16 1)) = true ∧ goesOn (exec .restore (sys 0x86E5#16 2)) = true ∧
    (sys 0x8410#16 1).cfg.wf = true := by
  unfold NextIsPrefix; decide +kernel

theorem witness_ProgramCounterAfterEveryInstruction :
    goesOn (exec (.mov 1#5 2#5) { base with ds := some 0x1800#33 }) = true ∧
    goesOn (exec .restore { base with ds := some 0x1800#33 }) = true ∧
    (nextOf (exec .restore base)).map (fun t => t.status.ie) = some base.status.ie := by decide +kernel

theorem witness_MemoryChangedOnlyByStores :
    (Instr.ld 1#5 2#5).stores = false ∧ goesOn (exec (.ld 1#5 2#5) base) = true ∧
    (interrupted 0x8CE0#16 5#6 5).acceptsIrq = true ∧ goesOn (step (interrupted 0x8CE0#16 5#6 5)) = true := by
  decide +kernel

/-- Each kind of change: WVALID, ISTATUS by a trap and by a window exception, IPRI, and IE set. -/
theorem witness_SystemRegisterWriters :
    (nextOf (exec (.wrctl 1#5) (prefixed 2#11 base))).map (fun t => t.wvalid == base.wvalid) = some false ∧
    (nextOf (exec (.trap 1#6) base)).map (fun t => (t.istatus == base.istatus, t.status.ipri == base.status.ipri)) =
      some (false, false) ∧
    (nextOf (exec (.save 4#8) (sys 0x8410#16 1))).map (fun t => t.istatus == (sys 0x8410#16 1).istatus) = some false ∧
    (nextOf (exec .restore (sys 0x86E5#16 2))).map (fun t => t.istatus == (sys 0x86E5#16 2).istatus) = some false ∧
    (nextOf (exec (.wrctl 1#5) (prefixed 9#11 base))).map (fun t => (base.status.ie, t.status.ie)) =
      some (false, true) := by decide +kernel

theorem witness_BarredFromDelaySlot :
    (Instr.br 1#11).barredFromSlot = true ∧ { base with ds := some 0x1200#33 }.ds ≠ none ∧
    (Instr.restore).barredFromSlot = false := by decide +kernel

/-- At CWP = 7 of 128 registers, index 16 is the first register outside the file and 15 the last inside. -/
theorem witness_WindowInsideFileUpToHiMax :
    (base.setCwp 7#5).regs.length = base.cfg.fileSize.nreg ∧ (7#5).toNat < 8 ∧
    (base.cfg.fileSize.nreg ≤ 16 * (base.setCwp 7#5).status.cwp.toNat + (16#5).toNat ∧ 8 ≤ (16#5).toNat) ∧
    ¬ base.cfg.fileSize.nreg ≤ 16 * (base.setCwp 7#5).status.cwp.toNat + (15#5).toNat := by decide +kernel

theorem witness_WindowsOverlap :
    (1 ≤ (1#5).toNat ∧ 8 ≤ (15#5).toNat ∧ (15#5).toNat < 16) ∧ (7#5).toNat < 8 ∧
    (16 ≤ (23#5).toNat ∧ (23#5).toNat < 24 ∧ physIndex 2#5 23#5 = physIndex 2#5 23#5 ∧ 8 ≤ (23#5).toNat) := by
  decide

theorem witness_MemoryReadsAndWrites :
    Memory.wf [] = true ∧ Memory.wf [(0x2000, 0x11#8), (0x2001, 0x11#8)] = true := by decide

/-- The operands of the arithmetic, logic, shift and move statements: two registers and the widest immediate
with a prefix, and the smallest without. -/
def operands : State := start [(0#5, 0x80000000#32), (1#5, 0xFFFFFFFF#32), (2#5, 0x1203#32)]

theorem witness_AddWritesSumAndFlags :
    operands.reg? 1#5 = some 0xFFFFFFFF#32 ∧ operands.reg? 2#5 = some 0x1203#32 ∧
    (0xFFFF#32).toNat = immediateNumber (prefixed 0x7FF#11 operands) 31#5 ∧
    (0#32).toNat = immediateNumber operands 0#5 := by decide +kernel

theorem witness_SubtractWritesDifferenceAndFlags :
    operands.reg? 2#5 = some 0x1203#32 ∧ operands.reg? 1#5 = some 0xFFFFFFFF#32 ∧
    (0xFFFF#32).toNat = immediateNumber (prefixed 0x7FF#11 operands) 31#5 := by decide +kernel

theorem witness_CompareWritesFlagsOnly :
    operands.reg? 0#5 = some 0x80000000#32 ∧ operands.reg? 2#5 = some 0x1203#32 ∧
    (31#32).toNat = immediateNumber operands 31#5 := by decide +kernel

theorem witness_NegateAndAbsolute : operands.reg? 0#5 = some 0x80000000#32 := by decide +kernel

theorem witness_MultiplyWritesLowHalfProduct :
    operands.reg? regR0 = some 0x80000000#32 ∧ operands.reg? 1#5 = some 0xFFFFFFFF#32 := by decide +kernel

theorem witness_MultiplyStepAccumulates :
    operands.reg? regR0 = some 0x80000000#32 ∧ operands.reg? 0#5 = some 0x80000000#32 := by decide +kernel

theorem witness_SixteenMultiplyStepsMultiply : 0xFFFF < 2 ^ 16 ∧ 0x5678 < 2 ^ 16 := by decide

theorem witness_LogicWritesResultAndSign :
    operands.reg? 1#5 = some 0xFFFFFFFF#32 ∧
    (operands.pfxf = false ∧ operands.reg? 2#5 = some 0x1203#32) ∧
    ((prefixed 0#11 operands).pfxf = true ∧ (31#32).toNat = immediateNumber (prefixed 0#11 operands) 31#5) := by
  decide +kernel

theorem witness_NotSwapAndSignExtend : operands.reg? 1#5 = some 0xFFFFFFFF#32 := by decide +kernel

theorem witness_ShiftsByZeroToThirtyOne :
    operands.reg? 0#5 = some 0x80000000#32 ∧ operands.reg? 1#5 = some 0xFFFFFFFF#32 := by decide +kernel

theorem witness_RotatesThroughCarry : operands.reg? 0#5 = some 0x80000000#32 := by decide +kernel

theorem witness_BitGenerate : InFile operands operands.status.cwp 31#5 := by unfold InFile; decide +kernel

theorem witness_MovesWriteRegister :
    InFile operands operands.status.cwp 0#5 ∧ operands.reg? 1#5 = some 0xFFFFFFFF#32 ∧
    operands.reg? 0#5 = some 0x80000000#32 := by unfold InFile; decide +kernel

theorem witness_ExtractsByteOrHalfWord :
    operands.reg? 1#5 = some 0xFFFFFFFF#32 ∧ operands.reg? 2#5 = some 0x1203#32 := by decide +kernel

theorem witness_FillsReplicateIntoR0 : operands.reg? 2#5 = some 0x1203#32 := by decide +kernel

theorem witness_PrefixLoadsK :
    base.ds = none ∧ base.pfxf = false ∧ (prefixed 1#11 base).ds = none ∧ (prefixed 1#11 base).pfxf = true := by
  decide +kernel

theorem witness_UnusedPrefixHasNoEffect :
    (Instr.add 1#5 2#5).usesPrefix = false ∧
    ((Instr.ldp 1#2 1#5 1#5).readsPrefixFlag = false ∧ (∀ imm, Instr.ldp 1#2 1#5 1#5 ≠ .pfx imm) ∧ base.k = 0#11) :=
  ⟨by decide, by decide, fun _ h => (nomatch h), by decide +kernel⟩

/-- Base registers for the loads and stores: %g2 just below the top of the data space, %L0 and %sp inside. -/
def pointers : State :=
  start [(0#5, 0x44332211#32), (2#5, 0xFFFFFFFF#32), (16#5, 0x2000#32), (14#5, 0x2006#32)]

theorem witness_LoadsReadAlignedWord :
    InFile pointers pointers.status.cwp 1#5 ∧
    (pointers.reg? 2#5 = some 0xFFFFFFFF#32 ∧
      bytesBacked pointers.cfg (baseAddr pointers.k 0xFFFFFFFF#32).toNat 4 = true) ∧
    (pointers.reg? (BitVec.ofNat 5 (16 + (0#2).toNat)) = some 0x2000#32 ∧
      bytesBacked pointers.cfg (pointerAddr pointers.pfxf pointers.k 31#5 0x2000#32).toNat 4 = true) ∧
    (pointers.reg? regSp = some 0x2006#32 ∧
      bytesBacked pointers.cfg (stackAddr 255#8 0x2006#32).toNat 4 = true) := by
  unfold InFile; decide +kernel

theorem witness_WordStoresWriteAlignedWord :
    Memory.wf pointers.mem = true ∧ pointers.reg? 0#5 = some 0x44332211#32 ∧
    (pointers.reg? 2#5 = some 0xFFFFFFFF#32 ∧
      bytesBacked pointers.cfg (baseAddr pointers.k 0xFFFFFFFF#32).toNat 4 = true) ∧
    (pointers.reg? (BitVec.ofNat 5 (16 + (0#2).toNat)) = some 0x2000#32 ∧
      bytesBacked pointers.cfg (pointerAddr pointers.pfxf pointers.k 31#5 0x2000#32).toNat 4 = true) ∧
    (pointers.reg? regSp = some 0x2006#32 ∧
      bytesBacked pointers.cfg (stackAddr 255#8 0x2006#32).toNat 4 = true) := by decide +kernel

theorem witness_ByteStoresWriteOneLane :
    Memory.wf pointers.mem = true ∧ pointers.reg? regR0 = some 0x44332211#32 ∧
    (pointers.reg? 2#5 = some 0xFFFFFFFF#32 ∧
      0xFFFFFFFF = byteLaneAddr (baseAddr pointers.k 0xFFFFFFFF#32) (byteLane 0xFFFFFFFF#32) ∧
      0xFFFFFFFC = byteLaneAddr (baseAddr pointers.k 0xFFFFFFFF#32) 0#2 ∧
      bytesBacked pointers.cfg 0xFFFFFFFF 1 = true ∧ bytesBacked pointers.cfg 0xFFFFFFFC 1 = true) ∧
    (pointers.reg? regSp = some 0x2006#32 ∧
      0x2407 = byteLaneAddr (stackByteAddr 1023#10 0x2006#32) ((1023#10).extractLsb' 0 2) ∧
      bytesBacked pointers.cfg 0x2407 1 = true) := by decide +kernel

theorem witness_HalfStoresWriteOneLane :
    Memory.wf pointers.mem = true ∧ pointers.reg? regR0 = some 0x44332211#32 ∧
    (pointers.reg? 2#5 = some 0xFFFFFFFF#32 ∧
      0xFFFFFFFE = halfLaneAddr (baseAddr pointers.k 0xFFFFFFFF#32) (halfLane 0xFFFFFFFF#32) ∧
      0xFFFFFFFC = halfLaneAddr (baseAddr pointers.k 0xFFFFFFFF#32) 0#1 ∧
      bytesBacked pointers.cfg 0xFFFFFFFE 2 = true ∧ bytesBacked pointers.cfg 0xFFFFFFFC 2 = true) ∧
    (pointers.reg? regSp = some 0x2006#32 ∧
      0x2406 = halfLaneAddr (stackHalfAddr 511#9 0x2006#32) ((511#9).extractLsb' 0 1) ∧
      bytesBacked pointers.cfg 0x2406 2 = true) := by decide +kernel

theorem witness_BranchesAreDelayed :
    base.ds = none ∧ InFile base base.status.cwp regO7 ∧
    (0 ≤ (base.pc.toNat : Int) + 2 * ((0x400#11).toInt + 1) ∧
      (base.pc.toNat : Int) + 2 * ((0x400#11).toInt + 1) < 2 ^ 33) := by
  unfold InFile; decide +kernel

theorem witness_JumpsAreDelayed :
    operands.ds = none ∧ operands.reg? 1#5 = some 0xFFFFFFFF#32 ∧ InFile operands operands.status.cwp regO7 := by
  unfold InFile; decide +kernel

/-- A skip taken and not taken, before a PFX and before another instruction. -/
theorem witness_SkipsOnRegister :
    operands.ds = none ∧ operands.reg? 0#5 = some 0x80000000#32 ∧
    ((0x80000000#32).getLsbD (31#5).toNat = true ∧ (0x80000000#32).getLsbD (30#5).toNat = false) ∧
    NextFetchable operands ∧ NextIsPrefix (withHalf 0x1002 0x9801 operands) ∧ ¬ NextIsPrefix operands := by
  unfold NextFetchable NextIsPrefix; decide +kernel

/-- Every assigned condition is true of some flags and false of others. -/
theorem witness_SkipsOnCondition :
    (base.ds = none ∧ base.status.flags = { n := false, v := false, z := false, c := false } ∧ NextFetchable base) ∧
    ∀ c : Fin 14, (∃ f : BitVec 4, conditionHolds (BitVec.ofNat 4 c) (nvzc f) = some true) ∧
      ∃ f : BitVec 4, conditionHolds (BitVec.ofNat 4 c) (nvzc f) = some false := by
  unfold NextFetchable; decide +kernel

theorem witness_ConditionsAfterCompare :
    operands.reg? 0#5 = some 0x80000000#32 ∧ operands.reg? 1#5 = some 0xFFFFFFFF#32 ∧
    goesOn (exec (.cmp 0#5 1#5) operands) = true := by decide +kernel

/-- At LO_LIMIT with IE = 1: IPRI = 1 takes no exception, IPRI = 2 takes it. -/
theorem witness_SaveOpensWindow :
    ((sys 0x8210#16 1).setCwp ((sys 0x8210#16 1).status.cwp - 1#5)).reg? regFp = some 0#32 ∧
    ¬((sys 0x8210#16 1).status.cwp = (sys 0x8210#16 1).wvalid.lo ∧ (sys 0x8210#16 1).status.ie = true ∧
      1 < (sys 0x8210#16 1).status.ipri.toNat) ∧
    ((sys 0x8410#16 1).setCwp ((sys 0x8410#16 1).status.cwp - 1#5)).reg? regFp = some 0#32 ∧
    ((sys 0x8410#16 1).status.cwp = (sys 0x8410#16 1).wvalid.lo ∧ (sys 0x8410#16 1).status.ie = true ∧
      1 < (sys 0x8410#16 1).status.ipri.toNat ∧ VectorBacked (sys 0x8410#16 1) 1#6) := by
  unfold VectorBacked; decide +kernel

/-- At HI_LIMIT with IE = 1: IPRI = 2 takes no exception, IPRI = 3 takes it. -/
theorem witness_RestoreClosesWindow :
    ¬((sys 0x84E5#16 2).status.cwp = (sys 0x84E5#16 2).wvalid.hi ∧ (sys 0x84E5#16 2).status.ie = true ∧
      2 < (sys 0x84E5#16 2).status.ipri.toNat) ∧
    ((sys 0x86E5#16 2).status.cwp = (sys 0x86E5#16 2).wvalid.hi ∧ (sys 0x86E5#16 2).status.ie = true ∧
      2 < (sys 0x86E5#16 2).status.ipri.toNat ∧
      HandlerWindow (sys 0x86E5#16 2) ((sys 0x86E5#16 2).status.cwp + 1#5) ∧ VectorBacked (sys 0x86E5#16 2) 2#6) := by
  unfold HandlerWindow InFile VectorBacked; decide +kernel

theorem witness_TrapEntersHandler :
    (sys 0x7EEA#16 63).ds = none ∧ HandlerWindow (sys 0x7EEA#16 63) (sys 0x7EEA#16 63).status.cwp ∧
    VectorBacked (sys 0x7EEA#16 63) 63#6 := by
  unfold HandlerWindow InFile VectorBacked; decide +kernel

/-- `base` at a window pointer. -/
def atWindow (cwp : BitVec 5) : State := base.setCwp cwp

/-- 128 registers: CWP 1 and 7 have a handler window, 0 and 8 have none. -/
theorem witness_ExceptionEntryNeedsWindow :
    base.regs.length = base.cfg.fileSize.nreg ∧
    (1 ≤ (1#5).toNat ∧ (7#5).toNat ≤ base.cfg.fileSize.nreg / 16 - 1 ∧
      base.cfg.fileSize.nreg / 16 - 1 < (8#5).toNat) ∧
    ((atWindow 0#5).status.cwp = 0#5 ∧ base.cfg.fileSize ≠ .regs512 ∧ (atWindow 0#5).ds = none) ∧
    ({ atWindow 8#5 with
        irqs := [{ irq := true, number := 5#6 }]
        status := { ie := true, ipri := 63#6, cwp := 8#5, flags := nvzc 0#4 } }).acceptsIrq = true ∧
    (base.cfg.fileSize.nreg / 16 - 2 < (7#5).toNat ∧ (7#5).toNat ≠ 31) := by decide +kernel

/-- RESTORE at HI_LIMIT = HI_MAX + 1 with its exception enabled. -/
theorem witness_ExceptionEntryNeedsWindow_restore :
    ({ sys 0x86F5#16 2 with wvalid := { hi := 15#5, lo := 1#5 } }).status.cwp = 15#5 ∧
    ({ sys 0x86F5#16 2 with wvalid := { hi := 15#5, lo := 1#5 } }).status.ie = true ∧
    2 < ({ sys 0x86F5#16 2 with wvalid := { hi := 15#5, lo := 1#5 } }).status.ipri.toNat ∧
    refusalOf (exec .restore { sys 0x86F5#16 2 with wvalid := { hi := 15#5, lo := 1#5 } }) =
      some (.handlerWindowOutsideFile 15#5) := by decide +kernel

theorem witness_TrapReturnRestoresStatus :
    operands.ds = none ∧ operands.reg? 1#5 = some 0xFFFFFFFF#32 := by decide +kernel

theorem witness_ExceptionThenReturnRestores :
    (interrupted 0x8CE0#16 5#6 5).pc.toNat % 2 = 0 ∧ (interrupted 0x8CE0#16 5#6 5).ds = none ∧
    HandlerWindow (interrupted 0x8CE0#16 5#6 5) (interrupted 0x8CE0#16 5#6 5).status.cwp ∧
    VectorBacked (interrupted 0x8CE0#16 5#6 5) 5#6 ∧
    (interrupted 0x8CE0#16 5#6 5).acceptsIrq = true ∧ (interrupted 0x8CE0#16 5#6 5).irqNow.number = 5#6 := by
  unfold HandlerWindow InFile VectorBacked; decide +kernel

/-- Every value of K the clauses name, with the values at which they meet. -/
theorem witness_ReadControlRegister :
    InFile base base.status.cwp 31#5 ∧ base.k = 0#11 ∧
    ([1#11, 2#11, 8#11, 9#11].map fun k => (prefixed k base).k) = [1#11, 2#11, 8#11, 9#11] ∧
    ((3 ≤ (prefixed 3#11 base).k.toNat ∧ (prefixed 3#11 base).k.toNat ≤ 7) ∧
      (3 ≤ (prefixed 7#11 base).k.toNat ∧ (prefixed 7#11 base).k.toNat ≤ 7) ∧
      10 ≤ (prefixed 10#11 base).k.toNat ∧ 10 ≤ (prefixed 2047#11 base).k.toNat) := by
  unfold InFile; decide +kernel

theorem witness_WriteControlRegister :
    operands.reg? 1#5 = some 0xFFFFFFFF#32 ∧
    (operands.k = 0#11 ∧ bytesBacked operands.cfg operands.next.toNat 2 = true ∧
      HalfAt operands.mem operands.next.toNat 0x3000#16 ∧
      ¬ HalfAt (withHalf 0x1002 0x3001 operands).mem operands.next.toNat 0x3000#16) ∧
    ([1#11, 2#11, 8#11, 9#11].map fun k => (prefixed k operands).k) = [1#11, 2#11, 8#11, 9#11] ∧
    (operands.cfg.wvalidWritable = true ∧
      { operands with cfg := { operands.cfg with wvalidWritable := false } }.cfg.wvalidWritable = false) ∧
    ((3 ≤ (prefixed 3#11 operands).k.toNat ∧ (prefixed 3#11 operands).k.toNat ≤ 7) ∧
      (prefixed 7#11 operands).k.toNat ≤ 7 ∧ 10 ≤ (prefixed 10#11 operands).k.toNat) := by
  unfold HalfAt; decide +kernel

end Sys2Proof.Tests
end

