-- ==== Sys2Proof/Proofs/Endings.lean ====
section
/-! SUPPORT. The instructions by what they can change, and for each kind, once, every state in which an
instruction of that kind can end. -/

namespace Sys2Proof

/-- What an instruction changes beside pc, K, PFXF and DS. -/
inductive Effect where
  /-- The flags, and at most one register (10_state.md R66). -/
  | flags
  /-- One register. -/
  | register
  /-- Memory. -/
  | memory
  /-- Nothing: it chooses between the next instruction and the one after (44_control_flow.md R270). -/
  | skip
  /-- At most the link register: it sets a delayed branch target. -/
  | branch
  /-- The window, and the exception state where an exception is taken (45_system.md R291 to R294). -/
  | window
  /-- Control registers: WRCTL and TRET (R296, R298). -/
  | control
  /-- K, as PFX does (42_move_extract.md R220). -/
  | constant
  /-- Nothing: it has no meaning (30_encoding.md R121). -/
  | reserved

/-- The kind each instruction is of. -/
def Instr.effect : Instr → Effect
  | .add _ _ | .addi _ _ | .sub _ _ | .subi _ _ | .cmp _ _ | .cmpi _ _
  | .and _ _ | .andn _ _ | .or _ _ | .xor _ _ | .rlc _ | .rrc _ => .flags
  | .st _ _ | .stp _ _ _ | .sts _ _ | .st8d _ | .st8s _ _ | .sts8s _ | .st16d _ | .st16s _ _ | .sts16s _ => .memory
  | .skp0 _ _ | .skp1 _ _ | .skprz _ | .skprnz _ | .skps _ => .skip
  | .br _ | .bsr _ | .jmp _ | .call _ => .branch
  | .save _ | .restore | .trap _ => .window
  | .wrctl _ | .tret _ => .control
  | .pfx _ => .constant
  | .usr0 _ _ | .usr1 _ | .usr2 _ | .usr3 _ | .usr4 _ => .reserved
  | _ => .register

/-- May an instruction of this kind be in the table of R66? -/
def Effect.writesFlags : Effect → Bool
  | .flags | .control => true
  | _ => false

/-- Does an instruction of this kind leave a new constant in K (10_state.md R45)? -/
def Effect.setsK : Effect → Bool
  | .constant => true
  | _ => false

end Sys2Proof

namespace Sys2Proof.Machine

variable {s t : State}

/-! ### One register -/

/-- One register was written, and the instruction ended sequentially; RDCTL also counts a free value as drawn. -/
def EndsWithRegister (s t : State) : Prop :=
  ∃ (drawn : Nat) (j : RegIdx) (v : Word), t = (State.putReg { s with freeCount := drawn } j v).advance

theorem EndsWithRegister.of_putReg {j : RegIdx} {v : Word} (h : t = (s.putReg j v).advance) :
    EndsWithRegister s t := ⟨s.freeCount, j, v, h⟩

theorem EndsWithRegister.of_unary {a : RegIdx} {f : Word → Word} (h : unary s a f = .next t) :
    EndsWithRegister s t :=
  have ⟨_, _, ht⟩ := unary_next h
  .of_putReg ht

theorem EndsWithRegister.of_binary {a b : RegIdx} {f : Word → Word → Word} (h : binary s a b f = .next t) :
    EndsWithRegister s t :=
  have ⟨_, _, _, _, ht⟩ := binary_next h
  .of_putReg ht

/-- A load, whatever register its address comes from. -/
theorem EndsWithRegister.of_load {a b : RegIdx} {addr : Word → Word}
    (h : (readReg s b fun base => loadTo s a (addr base)) = .next t) : EndsWithRegister s t :=
  have ⟨_, _, h⟩ := readReg_next h
  .of_putReg (loadTo_next h).2.2

theorem exec_register_next {i : Instr} (hi : i.effect = .register) (h : exec i s = .next t) :
    EndsWithRegister s t := by
  cases i with
  | not | neg | abs | sext8 | sext16 | swap | lsli | lsri | asri | movhi | ext8s | ext16s => exact .of_unary h
  | lsl | lsr | asr | ext8d | ext16d => exact .of_binary h
  | ld | ldp | lds => exact .of_load h
  | bgen => exact .of_putReg (execBgen_next h).2
  | movi => exact .of_putReg (execMovi_next h).2
  | mov =>
    obtain ⟨_, _, _, ht⟩ := execMov_next h
    exact .of_putReg ht
  | fill8 =>
    obtain ⟨_, _, ht⟩ := execFill8_next h
    exact .of_putReg ht
  | fill16 =>
    obtain ⟨_, _, ht⟩ := execFill16_next h
    exact .of_putReg ht
  | mstep =>
    obtain ⟨_, _, _, _, ht⟩ := execMstep_next h
    exact .of_putReg ht
  | mul =>
    obtain ⟨_, _, _, _, ht⟩ := execMul_next h
    exact .of_putReg ht
  | rdctl =>
    obtain ⟨_, _, _, ht⟩ := execRdctl_next h
    exact ⟨_, _, _, ht⟩
  | _ => cases hi

/-! ### The flags -/

/-- The flags were written, and at most one register, and the instruction ended sequentially. -/
def EndsWithFlags (s t : State) : Prop :=
  ∃ (f : Flags) (u : State), (u = s ∨ ∃ j v, u = s.putReg j v) ∧ t = (u.setFlags f).advance

theorem EndsWithFlags.of_setFlags {f : Flags} (h : t = (s.setFlags f).advance) : EndsWithFlags s t :=
  ⟨f, s, .inl rfl, h⟩

theorem EndsWithFlags.of_putReg {f : Flags} {j : RegIdx} {v : Word} (h : t = ((s.setFlags f).putReg j v).advance) :
    EndsWithFlags s t := ⟨f, s.putReg j v, .inr ⟨j, v, rfl⟩, h⟩

theorem EndsWithFlags.of_logicOp {a : RegIdx} {b : BitVec 5} {op : Word → Word → Word}
    (h : logicOp s a b op = .next t) : EndsWithFlags s t :=
  have ⟨_, _, _, _, ht⟩ := logicOp_next h
  .of_putReg ht

theorem exec_flags_next {i : Instr} (hi : i.effect = .flags) (h : exec i s = .next t) : EndsWithFlags s t := by
  cases i with
  | and | andn | or | xor => exact .of_logicOp h
  | add =>
    obtain ⟨_, _, _, _, ht⟩ := execAdd_next h
    exact .of_putReg ht
  | sub =>
    obtain ⟨_, _, _, _, ht⟩ := execSub_next h
    exact .of_putReg ht
  | addi =>
    obtain ⟨_, _, ht⟩ := execAddi_next h
    exact .of_putReg ht
  | subi =>
    obtain ⟨_, _, ht⟩ := execSubi_next h
    exact .of_putReg ht
  | cmp =>
    obtain ⟨_, _, _, _, ht⟩ := execCmp_next h
    exact .of_setFlags ht
  | cmpi =>
    obtain ⟨_, _, ht⟩ := execCmpi_next h
    exact .of_setFlags ht
  | rlc =>
    obtain ⟨_, _, ht⟩ := execRlc_next h
    exact .of_putReg ht
  | rrc =>
    obtain ⟨_, _, ht⟩ := execRrc_next h
    exact .of_putReg ht
  | _ => cases hi

/-! ### Memory -/

/-- A store, whatever register its address comes from and whatever part of the word it writes. -/
theorem storedState_of_store {b : RegIdx} {store : Word → Out}
    (hs : ∀ base, store base = .next t → ∃ addr vs, t = storedState s addr vs)
    (h : readReg s b store = .next t) : ∃ addr vs, t = storedState s addr vs :=
  have ⟨base, _, h⟩ := readReg_next h
  hs base h

theorem exec_memory_next {i : Instr} (hi : i.effect = .memory) (h : exec i s = .next t) :
    ∃ addr vs, t = storedState s addr vs := by
  cases i with
  | st | stp | sts =>
    refine storedState_of_store (fun _ h => ?_) h
    obtain ⟨_, _, _, ht⟩ := storeWordFrom_next h
    exact ⟨_, _, ht⟩
  | st8d | st8s | sts8s =>
    refine storedState_of_store (fun _ h => ?_) h
    obtain ⟨_, _, _, ht⟩ := storeByteLane_next h
    exact ⟨_, _, ht⟩
  | st16d | st16s | sts16s =>
    refine storedState_of_store (fun _ h => ?_) h
    obtain ⟨_, _, _, ht⟩ := storeHalfLane_next h
    exact ⟨_, _, ht⟩
  | _ => cases hi

/-! ### Skips and branches -/

theorem exec_skip_next {i : Instr} (hi : i.effect = .skip) (h : exec i s = .next t) : ∃ test, SkippedTo s t test := by
  cases i with
  | skp0 | skp1 | skprz | skprnz =>
    obtain ⟨_, _, _, ht⟩ := skipOnRegister_next h
    exact ⟨_, ht⟩
  | skps =>
    obtain ⟨_, _, _, ht⟩ := execSkps_next h
    exact ⟨_, ht⟩
  | _ => cases hi

/-- A branch leaves the registers alone, or the link in %o7, and its target in DS (10_state.md R50). -/
theorem exec_branch_next {i : Instr} (hi : i.effect = .branch) (h : exec i s = .next t) :
    ∃ (u : State) (target : Addr), (u = s ∨ u = s.putReg regO7 (linkWord s)) ∧
      t = { u.clearPrefix with pc := s.pc + 2#33, ds := some target } := by
  cases i with
  | br => exact ⟨s, _, .inl rfl, (execBr_next h).2⟩
  | jmp =>
    obtain ⟨_, _, _, ht⟩ := execJmp_next h
    exact ⟨s, _, .inl rfl, ht⟩
  | bsr => exact ⟨_, _, .inr rfl, (execBsr_next h).2.2⟩
  | call =>
    obtain ⟨_, _, _, _, ht⟩ := execCall_next h
    exact ⟨_, _, .inr rfl, ht⟩
  | _ => cases hi

/-! ### Windows and exceptions -/

/-- SAVE, RESTORE and TRAP: CWP and the registers may have changed, and then the instruction ended sequentially or
an exception was entered. -/
theorem exec_window_next {i : Instr} (hi : i.effect = .window) (h : exec i s = .next t) :
    ∃ u : State, (∃ cwp regs, u = { s.setCwp cwp with regs := regs }) ∧
      (t = u.advance ∨ ∃ n ret underflow, t = enteredState u n ret underflow) := by
  cases i with
  | save imm =>
    obtain ⟨fp, _, h⟩ := execSave_next h
    refine ⟨(s.setCwp (s.status.cwp - 1#5)).putReg regSp (fp - imm.setWidth 32 * 4#32), ⟨_, _, rfl⟩, ?_⟩
    split at h
    · exact .inr ⟨_, _, _, h⟩
    · exact .inl h
  | restore =>
    have h := execRestore_next h
    refine ⟨s.setCwp (s.status.cwp + 1#5), ⟨s.status.cwp + 1#5, s.regs, rfl⟩, ?_⟩
    split at h
    · exact .inr ⟨_, _, _, h⟩
    · exact .inl h
  | trap => exact ⟨s, ⟨s.status.cwp, s.regs, rfl⟩, .inr ⟨_, _, _, (execTrap_next h).2⟩⟩
  | _ => cases hi

/-! ### Control registers -/

@[simp] theorem writtenState_k (s : State) (v : Word) (c : ControlReg) : (writtenState s v c).k = 0#11 := by
  cases c <;> rfl

/-- STATUS written whole takes its flags from bits 3 to 0 (10_state.md R58; 45_system.md R298). -/
theorem writtenState_status_flags (s : State) (v : Word) :
    (writtenState s v .status).status.flags =
      { n := v.getLsbD 3, v := v.getLsbD 2, z := v.getLsbD 1, c := v.getLsbD 0 } := by
  simp [writtenState, Status.ofWord, BitVec.getElem_extractLsb']

/-- No control register but STATUS holds the flags (R298). -/
theorem writtenState_flags_of_ne {c : ControlReg} (hc : c ≠ .status) (s : State) (v : Word) :
    (writtenState s v c).status.flags = s.status.flags := by
  cases c with
  | status => exact absurd rfl hc
  | wvalid =>
    rw [writtenState, advance_status]
    split <;> rfl
  | istatus | clrIe | setIe => rfl

theorem exec_control_k {i : Instr} (hi : i.effect = .control) (h : exec i s = .next t) : t.k = 0#11 := by
  cases i with
  | wrctl =>
    obtain ⟨_, _, _, _, rfl⟩ := execWrctl_next h
    exact writtenState_k ..
  | tret =>
    obtain ⟨_, _, _, rfl⟩ := execTret_next h
    rfl
  | _ => cases hi

/-- The reserved opcodes complete in no state (R300 to R304). -/
theorem exec_reserved_ne_next {i : Instr} (hi : i.effect = .reserved) : exec i s ≠ .next t := by
  cases i with
  | usr0 | usr1 | usr2 | usr3 | usr4 => exact nofun
  | _ => cases hi

/-! ### All instructions together -/

/-- K is 0 after every instruction but PFX (10_state.md R45). -/
theorem exec_k_eq_zero {i : Instr} (hi : i.effect.setsK = false) (h : exec i s = .next t) : t.k = 0#11 := by
  cases he : i.effect with
  | flags =>
    obtain ⟨_, _, _, rfl⟩ := exec_flags_next he h
    rfl
  | register =>
    obtain ⟨_, _, _, rfl⟩ := exec_register_next he h
    rfl
  | memory =>
    obtain ⟨_, _, rfl⟩ := exec_memory_next he h
    rfl
  | skip =>
    obtain ⟨_, ⟨_, rfl⟩ | ⟨_, rfl⟩⟩ := exec_skip_next he h <;> rfl
  | branch =>
    obtain ⟨_, _, _, rfl⟩ := exec_branch_next he h
    rfl
  | window =>
    obtain ⟨_, _, rfl | ⟨_, _, _, rfl⟩⟩ := exec_window_next he h <;> rfl
  | control => exact exec_control_k he h
  | constant => simp [he, Effect.setsK] at hi
  | reserved => exact absurd h (exec_reserved_ne_next he)

/-- An instruction of a kind that the table of R66 does not name leaves the flags. -/
theorem exec_flags_eq {i : Instr} (hi : i.effect.writesFlags = false) (h : exec i s = .next t) :
    t.status.flags = s.status.flags := by
  cases he : i.effect with
  | register =>
    obtain ⟨_, _, _, rfl⟩ := exec_register_next he h
    rfl
  | memory =>
    obtain ⟨_, _, rfl⟩ := exec_memory_next he h
    rfl
  | skip =>
    obtain ⟨_, ⟨_, rfl⟩ | ⟨_, rfl⟩⟩ := exec_skip_next he h <;> rfl
  | branch =>
    obtain ⟨_, _, rfl | rfl, rfl⟩ := exec_branch_next he h <;> rfl
  | window =>
    obtain ⟨_, ⟨_, _, rfl⟩, rfl | ⟨_, _, _, rfl⟩⟩ := exec_window_next he h <;> rfl
  | constant =>
    cases i with
    | pfx =>
      obtain ⟨_, _, rfl⟩ := execPfx_next h
      rfl
    | _ => cases he
  | reserved => exact absurd h (exec_reserved_ne_next he)
  | flags | control => simp [he, Effect.writesFlags] at hi

end Sys2Proof.Machine
end

