-- ==== Sys2Proof/Proofs/FlagValues.lean ====
section
/-! SUPPORT. The flag computations in the words of Sys2Proof/Safety.lean: exact sums, and the sign with unlimited
precision. -/

namespace Sys2Proof.Machine

/-- The sign test of R151 by the sign bits is the one R57 gives: unlimited precision. -/
theorem addFlags_v (x y : Word) : (addFlags x y).v = ((x + y).msb != decide (x.toInt + y.toInt < 0)) := by
  have hx := x.isLt
  have hy := y.isLt
  rw [Bool.eq_iff_iff]
  simp only [addFlags, BitVec.msb_eq_decide, BitVec.toInt_eq_toNat_cond, BitVec.toNat_add, bne_iff_ne, ne_eq,
    Bool.and_eq_true, beq_iff_eq, decide_eq_decide]
  omega

/-- The sign test of R152 likewise. -/
theorem subFlags_v (x y : Word) : (subFlags x y).v = ((x - y).msb != decide (x.toInt - y.toInt < 0)) := by
  have hx := x.isLt
  have hy := y.isLt
  rw [Bool.eq_iff_iff]
  simp only [subFlags, BitVec.msb_eq_decide, BitVec.toInt_eq_toNat_cond, BitVec.toNat_sub, bne_iff_ne, ne_eq,
    Bool.and_eq_true, decide_eq_decide]
  omega

/-- Z: the result is the number zero. -/
theorem beq_zero_eq_decide (r : Word) : (r == 0#32) = decide (r.toNat = 0) := by
  rw [Bool.eq_iff_iff, beq_iff_eq, decide_eq_true_iff, ← BitVec.toNat_inj]
  rfl

theorem AddFlagsOf.addFlags (x y : Word) : AddFlagsOf x y (x + y) (addFlags x y) :=
  ⟨rfl, beq_zero_eq_decide _, rfl, addFlags_v x y⟩

theorem SubFlagsOf.subFlags (x y : Word) : SubFlagsOf x y (x - y) (subFlags x y) :=
  ⟨rfl, beq_zero_eq_decide _, rfl, subFlags_v x y⟩

theorem LogicFlagsOf.logicFlags (old : Flags) (r : Word) : LogicFlagsOf old r (logicFlags old r) :=
  ⟨rfl, beq_zero_eq_decide _, rfl, rfl⟩

/-- A difference modulo 2^32 as an exact number. -/
theorem sub_toNat_eq_emod (x y : Word) : ((x - y).toNat : Int) = ((x.toNat : Int) - y.toNat) % 2 ^ 32 := by
  have hx := x.isLt
  have hy := y.isLt
  rw [BitVec.toNat_sub]
  omega

/-- Bit 31, which RLC moves into C (41_logic_shift.md R183). -/
theorem getElem_31_eq_decide (x : Word) : x[31] = decide (2 ^ 31 ≤ x.toNat) :=
  (BitVec.msb_eq_getLsbD_last x).symm.trans (BitVec.msb_eq_decide x)

/-- Bit 0, which RRC moves into C (R184). -/
theorem getElem_0_eq_decide (x : Word) : x[0] = decide (x.toNat % 2 = 1) :=
  Nat.testBit_zero x.toNat

end Sys2Proof.Machine
end

