-- ==== Sys2Proof/Proofs/StateWriters.lean ====
section
/-! The statements of 10_state.md about the flags and about K. -/

namespace Sys2Proof.Machine

variable {s t : State}

/-- The flags after AND, ANDN, OR and XOR go with the register they write (41_logic_shift.md R171). -/
theorem logicOp_flags {a : RegIdx} {b : BitVec 5} {op : Word → Word → Word} (h : logicOp s a b op = .next t) :
    ∃ r, t.reg? a = some r ∧ LogicFlagsOf s.status.flags r t.status.flags := by
  obtain ⟨x, y, hx, _, rfl⟩ := logicOp_next h
  exact ⟨op x y, putReg_reg?_self (reg?_isSome hx), .logicFlags _ _⟩

/-- WRCTL writes the flags where K selects STATUS, and only there (45_system.md R298). -/
theorem execWrctl_flags {a : RegIdx} (h : execWrctl a s = .next t) :
    if s.k = 0#11 then
      ∃ v, s.reg? a = some v ∧ t.status.flags =
        { n := v.getLsbD 3, v := v.getLsbD 2, z := v.getLsbD 1, c := v.getLsbD 0 }
    else t.status.flags = s.status.flags := by
  obtain ⟨v, c, hv, hc, rfl⟩ := execWrctl_next h
  split
  next hk =>
    rw [hk] at hc
    cases hc
    exact ⟨v, hv, writtenState_status_flags s v⟩
  next hk =>
    refine writtenState_flags_of_ne ?_ s v
    rintro rfl
    simpa [hk] using controlReg_eq hc

/-- Settles O14: the flag writers by what each can do, every other instruction by its kind. -/
theorem flagWriterTable : Obligations.FlagWriterTable := by
  intro i s t h
  cases i with
  | add =>
    obtain ⟨x, y, hx, hy, rfl⟩ := execAdd_next h
    exact ⟨x, y, x + y, hx, hy, BitVec.toNat_add x y, .addFlags x y⟩
  | addi a imm =>
    obtain ⟨x, hx, rfl⟩ := execAddi_next h
    exact ⟨x, imm16 s.k imm, _, hx, imm16_toNat s.k imm, BitVec.toNat_add .., .addFlags ..⟩
  | sub =>
    obtain ⟨x, y, hx, hy, rfl⟩ := execSub_next h
    exact ⟨x, y, x - y, hx, hy, sub_toNat_eq_emod x y, .subFlags x y⟩
  | subi a imm =>
    obtain ⟨x, hx, rfl⟩ := execSubi_next h
    exact ⟨x, imm16 s.k imm, _, hx, imm16_toNat s.k imm, sub_toNat_eq_emod .., .subFlags ..⟩
  | cmp =>
    obtain ⟨x, y, hx, hy, rfl⟩ := execCmp_next h
    exact ⟨x, y, x - y, hx, hy, sub_toNat_eq_emod x y, .subFlags x y⟩
  | cmpi a imm =>
    obtain ⟨x, hx, rfl⟩ := execCmpi_next h
    exact ⟨x, imm16 s.k imm, _, hx, imm16_toNat s.k imm, sub_toNat_eq_emod .., .subFlags ..⟩
  | and | andn | or | xor => exact logicOp_flags h
  | rlc =>
    obtain ⟨x, hx, rfl⟩ := execRlc_next h
    exact ⟨x, hx, congrArg (fun c => { s.status.flags with c }) (getElem_31_eq_decide x)⟩
  | rrc =>
    obtain ⟨x, hx, rfl⟩ := execRrc_next h
    exact ⟨x, hx, congrArg (fun c => { s.status.flags with c }) (getElem_0_eq_decide x)⟩
  | wrctl => exact execWrctl_flags h
  | tret =>
    obtain ⟨_, _, _, rfl⟩ := execTret_next h
    rfl
  | _ => exact exec_flags_eq rfl h

/-- Settles O16: PFX sets K from its field, and every other kind of instruction ends with K clear. -/
theorem prefixRegisterAfterEveryInstruction : Obligations.PrefixRegisterAfterEveryInstruction := by
  intro i s t h
  cases i with
  | pfx =>
    obtain ⟨_, _, rfl⟩ := execPfx_next h
    rfl
  | _ => exact exec_k_eq_zero rfl h

end Sys2Proof.Machine
end

