-- ==== Sys2Proof/Proofs/MemoryBytes.lean ====
section
/-! The statement of 20_memory.md about bytes, half-words and words. -/

namespace Sys2Proof.Machine

/-- A read assembles the four bytes that stand there, lowest address first (20_memory.md R84). -/
theorem wordAt_iff_readWord (m : Memory) (addr : Nat) (v : Word) : WordAt m addr v ↔ Memory.readWord m addr = v where
  mp h := (WordAt.of_readWord m addr).unique h
  mpr h := h ▸ WordAt.of_readWord m addr

/-- The same of two bytes (R84). -/
theorem halfAt_iff_readHalf (m : Memory) (addr : Nat) (v : Half) : HalfAt m addr v ↔ Memory.readHalf m addr = v where
  mp h := (HalfAt.of_readHalf m addr).unique h
  mpr h := h ▸ HalfAt.of_readHalf m addr

/-- A run of one byte is that byte's write (R85). -/
theorem writeBytes_singleton (m : Memory) (addr : Nat) (v : Byte) : m.writeBytes addr [v] = m.write addr v := rfl

/-- Settles O23: the reads by the uniqueness of the value whose bytes stand at an address, the writes by the laws of a
run of bytes, inside it and outside it. -/
theorem memoryReadsAndWrites : Obligations.MemoryReadsAndWrites := by
  intro m addr
  refine ⟨wordAt_iff_readWord m addr, halfAt_iff_readHalf m addr,
    fun hm => ⟨fun v => ?word, fun v => ?half, fun v => ?byte⟩⟩
  case word => exact ⟨.of_writeBytes m hm addr v, read_writeBytes_outside m addr (wordBytes v) hm⟩
  case half => exact ⟨.of_writeBytes m hm addr v, read_writeBytes_outside m addr (halfBytes v) hm⟩
  case byte =>
    rw [writeBytes_singleton]
    have hread := read_write m addr v hm
    exact ⟨(hread addr).trans (if_pos rfl), fun a ha => (hread a).trans (if_neg ha)⟩

end Sys2Proof.Machine
end

section
/-! The statements of 30_encoding.md about the opcode map: a word is unassigned exactly in one of its blank rows (R122),
and each of its rows decodes as it is listed (R119). -/

namespace Sys2Proof

open BitVec (extractLsb'_append_eq_of_le extractLsb'_append_eq_of_add_le extractLsb'_eq_self getElem_eq_extractLsb')

/-! ### Opcode bits, as the decoder and as the opcode map group them (R118, R119) -/

/-- The map's bits 15:10, of a word with bit 15 = 0, are the decoder's bits 15:13 and 14:10. -/
theorem bits_15_10_eq_iff (w : Half) (op : BitVec 5) :
    w.extractLsb' 10 6 = op.setWidth 6 ↔ w.extractLsb' 13 3 < 0b100#3 ∧ w.extractLsb' 10 5 = op := by
  simp only [BitVec.toNat_eq, BitVec.lt_def, BitVec.extractLsb'_toNat, BitVec.toNat_setWidth, BitVec.toNat_ofNat,
    Nat.shiftRight_eq_div_pow]
  omega

/-- The map's bits 15:11 are the decoder's bits 15:13 and 12:11. -/
theorem bits_15_11_eq_iff (w : Half) :
    w.extractLsb' 11 5 = 0b10010#5 ↔ w.extractLsb' 13 3 = 0b100#3 ∧ w.extractLsb' 11 2 = 0b10#2 := by
  simp only [BitVec.toNat_eq, BitVec.extractLsb'_toNat, BitVec.toNat_ofNat, Nat.shiftRight_eq_div_pow]
  omega

/-! ### The words that each of the decoder's tables leaves unassigned (R122) -/

/-- A fixed-zero bit that is one is refused under its own name (R124). -/
theorem whenZero_ne_unassigned (zero : Bool) (i : Instr) : whenZero zero i ≠ .error .unassigned := by
  cases zero <;> simp [whenZero]

theorem decodeU_eq_unassigned_iff (w : Half) : decodeU w = .error .unassigned ↔
    w.extractLsb' 7 3 = 0b010#3 ∨ w.extractLsb' 7 3 = 0b011#3 ∨
      w.extractLsb' 7 3 = 0b110#3 ∨ w.extractLsb' 7 3 = 0b111#3 := by
  unfold decodeU
  generalize w.extractLsb' 7 3 = op
  split
  case h_5 =>
    simp only [imp_false, true_iff] at *
    bv_omega
  all_goals simp [whenZero_ne_unassigned]

theorem decodeV_eq_unassigned_iff (w : Half) : decodeV w = .error .unassigned ↔
    w.extractLsb' 8 2 = 0b10#2 ∨ w.extractLsb' 8 2 = 0b11#2 := by
  unfold decodeV
  generalize w.extractLsb' 8 2 = op
  split
  case h_3 =>
    simp only [imp_false, true_iff] at *
    bv_omega
  all_goals simp [whenZero_ne_unassigned]

theorem decodeW_eq_unassigned_iff (w : Half) : decodeW w = .error .unassigned ↔
    w.extractLsb' 5 5 = 0b00111#5 ∨ w.extractLsb' 5 5 = 0b01111#5 ∨ w.extractLsb' 5 5 = 0b11011#5 ∨
      w.extractLsb' 5 5 = 0b11100#5 ∨ w.extractLsb' 5 5 = 0b11101#5 := by
  unfold decodeW
  generalize w.extractLsb' 5 5 = op
  split
  case h_28 =>
    simp only [imp_false, true_iff] at *
    bv_omega
  all_goals simp [whenZero_ne_unassigned]

theorem decodeLow_eq_unassigned_iff (w : Half) : decodeLow w = .error .unassigned ↔
    (w.extractLsb' 10 5 = 0b11101#5 ∧ decodeU w = .error .unassigned) ∨
      (w.extractLsb' 10 5 = 0b11110#5 ∧ decodeV w = .error .unassigned) ∨
      (w.extractLsb' 10 5 = 0b11111#5 ∧ decodeW w = .error .unassigned) := by
  unfold decodeLow
  generalize w.extractLsb' 10 5 = op
  split
  case h_32 =>
    have hop : op = 0b11111#5 := by
      simp only [imp_false] at *
      bv_omega
    simp [hop]
  all_goals simp [whenZero_ne_unassigned]

theorem decodeWord_eq_unassigned_iff (w : Half) : decodeWord w = .error .unassigned ↔
    (w.extractLsb' 13 3 < 0b100#3 ∧ decodeLow w = .error .unassigned) ∨
      (w.extractLsb' 13 3 = 0b100#3 ∧ w.extractLsb' 11 2 = 0b10#2) := by
  unfold decodeWord
  generalize w.extractLsb' 13 3 = top
  split
  case h_3 => split <;> simp
  case h_4 => split <;> simp_all
  case h_5 =>
    have htop : top < 0b100#3 ∧ top ≠ 0b100#3 := by
      simp only [imp_false] at *
      bv_omega
    simp [htop]
  all_goals simp

/-- Settles O4: the unassigned words of each table, and the bits that lead to that table as the opcode map writes
them. -/
theorem unassignedEncodingsAreExactly : Obligations.UnassignedEncodingsAreExactly := by
  intro w
  have hU := bits_15_10_eq_iff w 0b11101#5
  have hV := bits_15_10_eq_iff w 0b11110#5
  have hW := bits_15_10_eq_iff w 0b11111#5
  simp only [BitVec.reduceSetWidth] at hU hV hW
  rw [decodeWord_eq_unassigned_iff, decodeLow_eq_unassigned_iff, decodeU_eq_unassigned_iff, decodeV_eq_unassigned_iff,
    decodeW_eq_unassigned_iff, hU, hV, hW, bits_15_11_eq_iff]
  simp only [and_or_left, and_assoc, or_assoc]

/-! ### Formats RR and Rw: the opcode and the fields they hold (R111) -/

theorem opcode_formatRR (op : BitVec 6) (b : BitVec 5) (a : RegIdx) :
    (formatRR op b a).extractLsb' 10 5 = op.extractLsb' 0 5 := by
  simp (disch := decide) only [formatRR, extractLsb'_append_eq_of_le]

theorem fieldA_formatRR (op : BitVec 6) (b : BitVec 5) (a : RegIdx) : fieldA (formatRR op b a) = a := by
  simp (disch := decide) only [formatRR, fieldA, extractLsb'_append_eq_of_add_le, extractLsb'_eq_self]

theorem fieldB_formatRR (op : BitVec 6) (b : BitVec 5) (a : RegIdx) : fieldB (formatRR op b a) = b := by
  simp (disch := decide) only [formatRR, fieldB, extractLsb'_append_eq_of_le, extractLsb'_append_eq_of_add_le,
    extractLsb'_eq_self, Nat.reduceSub]

/-- A word of format RR whose opcode begins with 0 is read by bits 14:10 (R118). -/
theorem decodeWord_formatRR {op : BitVec 6} (h : op.extractLsb' 3 3 < 0b100#3) (b : BitVec 5) (a : RegIdx) :
    decodeWord (formatRR op b a) = decodeLow (formatRR op b a) := by
  have htop : (formatRR op b a).extractLsb' 13 3 = op.extractLsb' 3 3 := by
    simp (disch := decide) only [formatRR, extractLsb'_append_eq_of_le]
  unfold decodeWord
  rw [htop]
  generalize op.extractLsb' 3 3 = top at h
  split
  case h_5 => rfl
  all_goals simp at h

/-- Format Rw is format RR under opcode 011111, with op5w in the B field. -/
theorem decodeWord_formatRw (op5w : BitVec 5) (a : RegIdx) :
    decodeWord (formatRw op5w a) = decodeW (formatRw op5w a) := by
  change decodeWord (formatRR 0b011111#6 op5w a) = _
  rw [decodeWord_formatRR (by decide)]
  simp only [decodeLow, opcode_formatRR, BitVec.reduceExtractLsb']
  rfl

theorem op5w_formatRw (op5w : BitVec 5) (a : RegIdx) : (formatRw op5w a).extractLsb' 5 5 = op5w :=
  fieldB_formatRR 0b011111#6 op5w a

theorem fieldA_formatRw (op5w : BitVec 5) (a : RegIdx) : fieldA (formatRw op5w a) = a :=
  fieldA_formatRR 0b011111#6 op5w a

/-! ### The rows of the opcode map (R119) -/

/-- Format by format: the opcode bits lead to the instruction's row, and each field is read back as written. (The width
of a word put together from parts stays a sum, since the laws of `++` speak of it in that form.) -/
theorem decodeWord_encode (i : Instr) : decodeWord (encode i) = .ok i := by
  cases i with
  | br | bsr | pfx | stp | ldp | sts | lds =>
    simp (disch := decide) [encode, decodeWord, fieldA, fieldB, fieldP, fieldImm8, fieldImm11, getElem_eq_extractLsb',
      extractLsb'_append_eq_of_le, extractLsb'_append_eq_of_add_le, -Nat.reduceAdd]
  | sts8s | sts16s | ext8s | st8s | ext16s | st16s | save | trap | skps =>
    simp (disch := decide) [encode, decodeWord, decodeLow, decodeU, decodeV, decodeW, whenZero, fieldA,
      getElem_eq_extractLsb', extractLsb'_append_eq_of_le, extractLsb'_append_eq_of_add_le, -Nat.reduceAdd]
  | not | neg | abs | sext8 | sext16 | rlc | rrc | swap | usr1 | usr2 | usr3 | usr4 | restore | tret | st8d | st16d
  | fill8 | fill16 | mstep | mul | skprz | wrctl | rdctl | skprnz | jmp | call =>
    simp [encode, decodeWord_formatRw, decodeW, op5w_formatRw, fieldA_formatRw, whenZero]
  | _ =>
    simp (disch := decide) only [encode, decodeWord_formatRR, decodeLow, opcode_formatRR, fieldA_formatRR,
      fieldB_formatRR, BitVec.reduceExtractLsb']

/-- Settles O3: an assigned row is the encoder's word for its instruction, and a blank row is one of those in O4. -/
theorem opcodeMapDecodes : Obligations.OpcodeMapDecodes := by
  have row := decodeWord_encode
  refine ⟨fun a b => row (.add a b), fun a imm => row (.addi a imm), fun a b => row (.sub a b),
    fun a imm => row (.subi a imm), fun a b => row (.cmp a b), fun a imm => row (.cmpi a imm),
    fun a b => row (.lsl a b), fun a imm => row (.lsli a imm), fun a b => row (.lsr a b),
    fun a imm => row (.lsri a imm), fun a b => row (.asr a b), fun a imm => row (.asri a imm),
    fun a b => row (.mov a b), fun a imm => row (.movi a imm), fun a b => row (.and a b), fun a b => row (.andn a b),
    fun a b => row (.or a b), fun a b => row (.xor a b), fun a imm => row (.bgen a imm), fun a b => row (.ext8d a b),
    fun a imm => row (.skp0 a imm), fun a imm => row (.skp1 a imm), fun a b => row (.ld a b), fun a b => row (.st a b),
    fun imm => row (.sts8s imm), fun imm => row (.sts16s imm), fun a b => row (.ext16d a b),
    fun a imm => row (.movhi a imm), fun a b => row (.usr0 a b), fun a imm => row (.ext8s a imm),
    fun a imm => row (.ext16s a imm), fun a imm => row (.st8s a imm), fun a imm => row (.st16s a imm),
    fun imm => row (.save imm), fun imm => row (.trap imm), fun a => row (.not a), fun a => row (.neg a),
    fun a => row (.abs a), fun a => row (.sext8 a), fun a => row (.sext16 a), fun a => row (.rlc a),
    fun a => row (.rrc a), fun a => row (.swap a), fun a => row (.usr1 a), fun a => row (.usr2 a),
    fun a => row (.usr3 a), fun a => row (.usr4 a), row .restore, fun a => row (.tret a), fun a => row (.st8d a),
    fun a => row (.st16d a), fun a => row (.fill8 a), fun a => row (.fill16 a), fun a => row (.mstep a),
    fun a => row (.mul a), fun a => row (.skprz a), fun cond => row (.skps cond), fun a => row (.wrctl a),
    fun a => row (.rdctl a), fun a => row (.skprnz a), fun a => row (.jmp a), fun a => row (.call a),
    fun imm => row (.br imm), fun imm => row (.bsr imm), fun imm => row (.pfx imm), fun p imm a => row (.stp p imm a),
    fun p imm a => row (.ldp p imm a), fun imm a => row (.sts imm a), fun imm a => row (.lds imm a),
    ?_, ?_, ?_, ?_, ?_, ?_, ?_, ?_, ?_, ?_, ?_, ?_⟩
  all_goals
    intro x
    refine (unassignedEncodingsAreExactly _).mpr ?_
    simp (disch := decide) [extractLsb'_append_eq_of_le, -Nat.reduceAdd]

end Sys2Proof
end

section
/-! The statements of 40_arithmetic.md about addition, subtraction, comparison (R153 to R156, R158, R159) and MUL
(R162): from operands inside the file each instruction completes, in a state written out once per instruction; what
that state holds is then read off the laws of flags, registers and frames. -/

namespace Sys2Proof.Machine

variable {s : State} {a b : RegIdx} {x y : Word}

/-! ### The state each instruction completes in -/

theorem execAdd_eq (hx : s.reg? a = some x) (hy : s.reg? b = some y) :
    execAdd a b s = .next ((s.setFlags (addFlags x y)).putReg a (x + y)).advance := by
  rw [execAdd, readReg_eq hx, readReg_eq hy, writeWithFlags_eq (reg?_isSome hx)]

theorem execAddi_eq (hx : s.reg? a = some x) (imm : BitVec 5) :
    execAddi a imm s =
      .next ((s.setFlags (addFlags x (imm16 s.k imm))).putReg a (x + imm16 s.k imm)).advance := by
  rw [execAddi, readReg_eq hx, writeWithFlags_eq (reg?_isSome hx)]

theorem execSub_eq (hx : s.reg? a = some x) (hy : s.reg? b = some y) :
    execSub a b s = .next ((s.setFlags (subFlags x y)).putReg a (x - y)).advance := by
  rw [execSub, readReg_eq hx, readReg_eq hy, writeWithFlags_eq (reg?_isSome hx)]

theorem execSubi_eq (hx : s.reg? a = some x) (imm : BitVec 5) :
    execSubi a imm s =
      .next ((s.setFlags (subFlags x (imm16 s.k imm))).putReg a (x - imm16 s.k imm)).advance := by
  rw [execSubi, readReg_eq hx, writeWithFlags_eq (reg?_isSome hx)]

theorem execCmp_eq (hx : s.reg? a = some x) (hy : s.reg? b = some y) :
    execCmp a b s = .next (s.setFlags (subFlags x y)).advance := by
  rw [execCmp, readReg_eq hx, readReg_eq hy, finish]

theorem execCmpi_eq (hx : s.reg? a = some x) (imm : BitVec 5) :
    execCmpi a imm s = .next (s.setFlags (subFlags x (imm16 s.k imm))).advance := by
  rw [execCmpi, readReg_eq hx, finish]

theorem execMul_eq (hx : s.reg? regR0 = some x) (hy : s.reg? a = some y) :
    execMul a s = .next (s.putReg regR0 (multiplyLow x y)).advance := by
  rw [execMul, readReg_eq hx, readReg_eq hy, writeReg_eq (reg?_isSome hx), finish]

/-! ### Values and frames -/

/-- A word that is the number `K : IMM5` is the immediate operand (30_encoding.md R127). -/
theorem eq_imm16 {imm : BitVec 5} (h : y.toNat = immediateNumber s imm) : y = imm16 s.k imm :=
  BitVec.eq_of_toNat_eq (h.trans (imm16_toNat s.k imm).symm)

/-- The low half-word as a number (00_scope.md R10). -/
theorem and_low_half_toNat (x : Word) : (x &&& 0xFFFF#32).toNat = x.toNat % 2 ^ 16 :=
  Nat.and_two_pow_sub_one_eq_mod x.toNat 16

/-- The product of two half-words fits 32 bits, so nothing is lost (R162). -/
theorem multiplyLow_toNat (x y : Word) : (multiplyLow x y).toNat = (x.toNat % 2 ^ 16) * (y.toNat % 2 ^ 16) := by
  have hfits : (x.toNat % 2 ^ 16) * (y.toNat % 2 ^ 16) < 2 ^ 16 * 2 ^ 16 :=
    Nat.mul_lt_mul'' (Nat.mod_lt _ (by decide)) (Nat.mod_lt _ (by decide))
  rw [multiplyLow, BitVec.toNat_mul, and_low_half_toNat, and_low_half_toNat]
  exact Nat.mod_eq_of_lt hfits

/-- The end of an instruction that writes the flags alone. -/
theorem setFlags_advance_frame (s : State) (f : Flags) :
    (s.setFlags f).advance.regs = s.regs ∧ SameControl s (s.setFlags f).advance ∧
      SameMemory s (s.setFlags f).advance :=
  ⟨rfl, ⟨rfl, rfl, rfl, rfl, rfl, rfl⟩, fun _ => rfl⟩

/-! ### The statements -/

/-- Settles O24: the register form, and the immediate form with `K : IMM5` for the second operand. -/
theorem addWritesSumAndFlags : Obligations.AddWritesSumAndFlags := by
  intro s a x hx
  have ha := reg?_isSome hx
  refine ⟨fun b y hy => ⟨decodeWord_encode (.add a b), ?register⟩,
    fun imm y hy => ⟨decodeWord_encode (.addi a imm), ?immediate⟩⟩
  case register =>
    exact ⟨_, x + y, _, execAdd_eq hx hy, BitVec.toNat_add x y, .addFlags x y, .of_advance ha ..⟩
  case immediate =>
    obtain rfl := eq_imm16 hy
    exact ⟨_, _, _, execAddi_eq hx imm, BitVec.toNat_add .., .addFlags .., .of_advance ha ..⟩

/-- Settles O25: the register form, and the immediate form with `K : IMM5` for the second operand. -/
theorem subtractWritesDifferenceAndFlags : Obligations.SubtractWritesDifferenceAndFlags := by
  intro s a x hx
  have ha := reg?_isSome hx
  refine ⟨fun b y hy => ⟨decodeWord_encode (.sub a b), ?register⟩,
    fun imm y hy => ⟨decodeWord_encode (.subi a imm), ?immediate⟩⟩
  case register =>
    exact ⟨_, x - y, _, execSub_eq hx hy, sub_toNat_eq_emod x y, .subFlags x y, .of_advance ha ..⟩
  case immediate =>
    obtain rfl := eq_imm16 hy
    exact ⟨_, _, _, execSubi_eq hx imm, sub_toNat_eq_emod .., .subFlags .., .of_advance ha ..⟩

/-- Settles O26: the discarded result is the difference, whose flags are the only thing written. -/
theorem compareWritesFlagsOnly : Obligations.CompareWritesFlagsOnly := by
  intro s a x hx
  refine ⟨fun b y hy => ⟨decodeWord_encode (.cmp a b), ?register⟩,
    fun imm y hy => ⟨decodeWord_encode (.cmpi a imm), ?immediate⟩⟩
  case register =>
    exact ⟨_, x - y, execCmp_eq hx hy, sub_toNat_eq_emod x y, .subFlags x y, setFlags_advance_frame ..⟩
  case immediate =>
    obtain rfl := eq_imm16 hy
    exact ⟨_, _, execCmpi_eq hx imm, sub_toNat_eq_emod .., .subFlags .., setFlags_advance_frame ..⟩

/-- Settles O28: both operands are read before %r0 is written, and the product fits its 32 bits. -/
theorem multiplyWritesLowHalfProduct : Obligations.MultiplyWritesLowHalfProduct := by
  intro s a x y hx hy
  exact ⟨decodeWord_encode (.mul a), _, _, execMul_eq hx hy, multiplyLow_toNat x y, .of_advance (reg?_isSome hx) _⟩

end Sys2Proof.Machine
end

section
/-! The statements of 41_logic_shift.md about logic, shifts, rotates and BGEN (R171 to R185), and of 42_move_extract.md
about SWAP, SEXT8 and SEXT16 (R204 to R206): the state each shape of instruction completes in, the results as bits or as
exact numbers, and from these the statements. -/

namespace Sys2Proof.Machine

variable {s : State} {a b : RegIdx} {x y : Word}

/-! ### The state each instruction completes in -/

/-- AND, ANDN, OR and XOR: without a PFX the second operand is register B, after one the constant `K : IMM5` (R171). -/
theorem logicOp_eq (hx : s.reg? a = some x)
    (hy : (s.pfxf = false ∧ s.reg? b = some y) ∨ (s.pfxf = true ∧ y.toNat = immediateNumber s b))
    (op : Word → Word → Word) :
    logicOp s a b op =
      .next ((s.setFlags (logicFlags s.status.flags (op x y))).putReg a (op x y)).advance := by
  rw [logicOp, readReg_eq hx, logicOperand]
  obtain ⟨hp, hy⟩ | ⟨hp, hy⟩ := hy
  · rw [if_neg (by simp [hp]), readReg_eq hy, writeWithFlags_eq (reg?_isSome hx)]
  · rw [if_pos hp, ← eq_imm16 hy, writeWithFlags_eq (reg?_isSome hx)]

theorem execRlc_eq (hx : s.reg? a = some x) :
    execRlc a s = .next ((s.setFlags { s.status.flags with c := decide (2 ^ 31 ≤ x.toNat) }).putReg a
      (rotateLeftC x s.status.flags.c)).advance := by
  rw [execRlc, readReg_eq hx, getElem_31_eq_decide, writeWithFlags_eq (reg?_isSome hx)]

theorem execRrc_eq (hx : s.reg? a = some x) :
    execRrc a s = .next ((s.setFlags { s.status.flags with c := decide (x.toNat % 2 = 1) }).putReg a
      (rotateRightC x s.status.flags.c)).advance := by
  rw [execRrc, readReg_eq hx, getElem_0_eq_decide, writeWithFlags_eq (reg?_isSome hx)]

theorem execBgen_eq (h : s.phys a < s.regs.length) (imm : BitVec 5) :
    execBgen a imm s = .next (s.putReg a (shiftLeft 1#32 imm)).advance := by
  rw [execBgen, writeReg_eq h, finish]

/-! ### The results as exact numbers -/

/-- The bits shifted out at the top are lost (R177). -/
theorem shiftLeft_toNat (x : Word) (n : BitVec 5) : (shiftLeft x n).toNat = x.toNat * 2 ^ n.toNat % 2 ^ 32 := by
  rw [shiftLeft, BitVec.toNat_shiftLeft, Nat.shiftLeft_eq]

/-- Zeros enter at the top (R179). -/
theorem shiftRight_toNat (x : Word) (n : BitVec 5) : (shiftRight x n).toNat = x.toNat / 2 ^ n.toNat := by
  rw [shiftRight, BitVec.toNat_ushiftRight, Nat.shiftRight_eq_div_pow]

/-- Copies of the sign enter at the top, which rounds toward minus infinity (R181). -/
theorem shiftRightSigned_toInt (x : Word) (n : BitVec 5) :
    (shiftRightSigned x n).toInt = x.toInt / 2 ^ n.toNat := by
  rw [shiftRightSigned, BitVec.toInt_sshiftRight, Int.shiftRight_eq_div_pow]
  norm_cast

/-- "Bits 31..5 of RB are ignored" (R181). -/
theorem shiftCount_toNat (y : Word) : (shiftCount y).toNat = y.toNat % 32 :=
  BitVec.extractLsb'_toNat ..

/-- Two runs of bits set side by side, as a number. -/
theorem append_toNat {m n : Nat} (u : BitVec m) (v : BitVec n) : (u ++ v).toNat = u.toNat * 2 ^ n + v.toNat := by
  rw [BitVec.toNat_append, ← Nat.shiftLeft_add_eq_or_of_lt v.isLt, Nat.shiftLeft_eq]

/-- The 31 low bits move up, and the old C is the new bit 0 (R183). -/
theorem rotateLeftC_toNat (x : Word) (c : Bool) : (rotateLeftC x c).toNat = 2 * x.toNat % 2 ^ 32 + c.toNat := by
  refine (append_toNat (x.extractLsb' 0 31) (BitVec.ofBool c)).trans ?_
  rw [BitVec.extractLsb'_toNat, BitVec.toNat_ofBool]
  omega

/-- The 31 high bits move down, and the old C is the new bit 31 (R184). -/
theorem rotateRightC_toNat (x : Word) (c : Bool) : (rotateRightC x c).toNat = c.toNat * 2 ^ 31 + x.toNat / 2 := by
  refine (append_toNat (BitVec.ofBool c) (x.extractLsb' 1 31)).trans ?_
  rw [BitVec.extractLsb'_toNat, BitVec.toNat_ofBool]
  omega

/-- SWAP: the low half-word becomes the high one, and the high one the low one (R204). -/
theorem swapHalves_toNat (x : Word) :
    (halfOf x 0#1 ++ halfOf x 1#1 : Word).toNat = (x.toNat % 2 ^ 16) * 2 ^ 16 + x.toNat / 2 ^ 16 := by
  have hlow : (halfOf x 0#1).toNat = x.toNat % 2 ^ 16 := BitVec.extractLsb'_toNat ..
  have hhigh : (halfOf x 1#1).toNat = x.toNat / 2 ^ 16 % 2 ^ 16 :=
    (BitVec.extractLsb'_toNat ..).trans (congrArg (· % 2 ^ 16) (Nat.shiftRight_eq_div_pow ..))
  refine (append_toNat (halfOf x 0#1) (halfOf x 1#1)).trans ?_
  omega

/-- The low `w + 1` bits sign-extended: from bit `w` on, every bit is a copy of bit `w` (R205, R206). -/
theorem getLsbD_signExtend_extractLsb' (x : Word) (w : Nat) {n : Nat} (hn : n < 32) :
    ((x.extractLsb' 0 (w + 1)).signExtend 32).getLsbD n = x.getLsbD (min n w) := by
  rw [BitVec.getLsbD_signExtend]
  by_cases h : n < w + 1
  · simp [hn, h, min_eq_left (Nat.le_of_lt_succ h)]
  · simp [hn, h, BitVec.msb_eq_getLsbD_last, min_eq_right (by omega : w ≤ n)]

/-- A left shift of 1 by 0 to 31 places loses nothing (R185). -/
theorem shiftLeft_one_toNat (n : BitVec 5) : (shiftLeft 1#32 n).toNat = 2 ^ n.toNat := by
  have hfits : 2 ^ n.toNat < 2 ^ 32 := Nat.pow_lt_pow_right (by decide) n.isLt
  rw [shiftLeft_toNat, BitVec.toNat_one (by decide), one_mul, Nat.mod_eq_of_lt hfits]

/-! ### The statements -/

/-- Settles O31: the four instructions are one shape, with the operation on words taken bit by bit. -/
theorem logicWritesResultAndSign : Obligations.LogicWritesResultAndSign := by
  intro s a b x y hx hy
  have ha := reg?_isSome hx
  refine ⟨⟨decodeWord_encode (.and a b), decodeWord_encode (.andn a b), decodeWord_encode (.or a b),
    decodeWord_encode (.xor a b)⟩, ?and, ?andn, ?or, ?xor⟩
  case and =>
    exact ⟨_, x &&& y, _, logicOp_eq hx hy _, fun n _ => BitVec.getLsbD_and, .logicFlags .., .of_advance ha ..⟩
  case andn =>
    exact ⟨_, x &&& ~~~y, _, logicOp_eq hx hy _, fun n hn => by simp [hn], .logicFlags .., .of_advance ha ..⟩
  case or =>
    exact ⟨_, x ||| y, _, logicOp_eq hx hy _, fun n _ => BitVec.getLsbD_or, .logicFlags .., .of_advance ha ..⟩
  case xor =>
    exact ⟨_, x ^^^ y, _, logicOp_eq hx hy _, fun n _ => BitVec.getLsbD_xor, .logicFlags .., .of_advance ha ..⟩

/-- Settles O32: four instructions that map one register, each by what its map does to the bits. -/
theorem notSwapAndSignExtend : Obligations.NotSwapAndSignExtend := by
  intro s a x hx
  have ha := reg?_isSome hx
  refine ⟨⟨decodeWord_encode (.not a), ?not⟩, ⟨decodeWord_encode (.swap a), ?swap⟩,
    ⟨decodeWord_encode (.sext8 a), ?sext8⟩, ⟨decodeWord_encode (.sext16 a), ?sext16⟩⟩
  case not => exact ⟨_, ~~~x, unary_eq hx _, fun n hn => by simp [hn], .of_advance ha _⟩
  case swap => exact ⟨_, _, unary_eq hx _, swapHalves_toNat x, .of_advance ha _⟩
  case sext8 => exact ⟨_, _, unary_eq hx _, fun n => getLsbD_signExtend_extractLsb' x 7, .of_advance ha _⟩
  case sext16 => exact ⟨_, _, unary_eq hx _, fun n => getLsbD_signExtend_extractLsb' x 15, .of_advance ha _⟩

/-- Settles O33: both forms of a shift are one operation, by the count in the low five bits of RB or by IMM5. -/
theorem shiftsByZeroToThirtyOne : Obligations.ShiftsByZeroToThirtyOne := by
  intro s a x hx
  have ha := reg?_isSome hx
  refine ⟨fun b y hy => ?register, fun imm => ?immediate⟩
  case register =>
    rw [← shiftCount_toNat y]
    exact ⟨
      ⟨decodeWord_encode (.lsl a b), _, _, binary_eq hx hy _, shiftLeft_toNat x _, .of_advance ha _⟩,
      ⟨decodeWord_encode (.lsr a b), _, _, binary_eq hx hy _, shiftRight_toNat x _, .of_advance ha _⟩,
      ⟨decodeWord_encode (.asr a b), _, _, binary_eq hx hy _, shiftRightSigned_toInt x _, .of_advance ha _⟩⟩
  case immediate =>
    exact ⟨
      ⟨decodeWord_encode (.lsli a imm), _, _, unary_eq hx _, shiftLeft_toNat x imm, .of_advance ha _⟩,
      ⟨decodeWord_encode (.lsri a imm), _, _, unary_eq hx _, shiftRight_toNat x imm, .of_advance ha _⟩,
      ⟨decodeWord_encode (.asri a imm), _, _, unary_eq hx _, shiftRightSigned_toInt x imm, .of_advance ha _⟩⟩

/-- Settles O34: the result takes in the old C, and the new C is the bit of the old RA that left at the other end. -/
theorem rotatesThroughCarry : Obligations.RotatesThroughCarry := by
  intro s a x hx
  have ha := reg?_isSome hx
  exact ⟨⟨decodeWord_encode (.rlc a), _, _, execRlc_eq hx, rotateLeftC_toNat x _, .of_advance ha ..⟩,
    ⟨decodeWord_encode (.rrc a), _, _, execRrc_eq hx, rotateRightC_toNat x _, .of_advance ha ..⟩⟩

/-- Settles O35: BGEN shifts 1 left, and reads no register to do so. -/
theorem bitGenerate : Obligations.BitGenerate := by
  intro s a imm ha
  exact ⟨decodeWord_encode (.bgen a imm), _, _, execBgen_eq ha imm, shiftLeft_one_toNat imm, .of_advance ha _⟩

end Sys2Proof.Machine
end

section
/-! The statements of 42_move_extract.md about MOV, MOVI and MOVHI (R201 to R203), FILL8 and FILL16 (R211, R212) and PFX
(R220, R224). -/

namespace Sys2Proof.Machine

variable {s : State} {a b : RegIdx} {x y : Word}

/-! ### %r0, and the next instruction -/

/-- %r0 lies inside the file wherever any other register does: it is physical register 0 (10_state.md R36). -/
theorem phys_regR0_lt (hx : s.reg? a = some x) : s.phys regR0 < s.regs.length :=
  Nat.zero_lt_of_lt (reg?_isSome hx)

/-- The next instruction stands two bytes on, where that sum is an address (10_state.md R51). -/
theorem AddressIs.add_two (p : Addr) : AddressIs (p + 2#33) (p.toNat + 2) := by
  intro _ hfits
  rw [BitVec.toNat_add_of_lt (by rw [BitVec.toNat_ofNat]; omega)]
  rfl

theorem next_of_ds_none (hds : s.ds = none) : s.next = s.pc + 2#33 := by rw [State.next, hds]

/-! ### The state each instruction completes in -/

theorem execMov_eq (ha : s.phys a < s.regs.length) (hy : s.reg? b = some y) :
    execMov a b s = .next (s.putReg a y).advance := by
  rw [execMov, readReg_eq hy, writeReg_eq ha, finish]

theorem execMovi_eq (ha : s.phys a < s.regs.length) (imm : BitVec 5) :
    execMovi a imm s = .next (s.putReg a (imm16 s.k imm)).advance := by
  rw [execMovi, writeReg_eq ha, finish]

theorem execFill8_eq (hx : s.reg? a = some x) : execFill8 a s = .next (s.putReg regR0 (fillByte x)).advance := by
  rw [execFill8, readReg_eq hx, writeReg_eq (phys_regR0_lt hx), finish]

theorem execFill16_eq (hx : s.reg? a = some x) : execFill16 a s = .next (s.putReg regR0 (fillHalf x)).advance := by
  rw [execFill16, readReg_eq hx, writeReg_eq (phys_regR0_lt hx), finish]

theorem execPfx_eq (hds : s.ds = none) (hp : s.pfxf = false) (imm : BitVec 11) :
    execPfx imm s = .next { s.advance with k := imm, pfxf := true } := by
  rw [execPfx, outsideDelaySlot_eq hds, if_neg (by simp [hp])]

theorem execPfx_refused (hds : s.ds = none) (hp : s.pfxf = true) (imm : BitVec 11) :
    execPfx imm s = .refused .consecutivePrefix := by
  rw [execPfx, outsideDelaySlot_eq hds, if_pos hp]

/-! ### The results as exact numbers -/

theorem byteOf_zero_toNat (x : Word) : (byteOf x 0#2).toNat = x.toNat % 2 ^ 8 :=
  BitVec.extractLsb'_toNat ..

theorem halfOf_zero_toNat (x : Word) : (halfOf x 0#1).toNat = x.toNat % 2 ^ 16 :=
  BitVec.extractLsb'_toNat ..

/-- `K : IMM5` becomes the high half-word, and the low one stays (R203). -/
theorem kImm5_append_halfOf_toNat (s : State) (imm : BitVec 5) (x : Word) :
    (kImm5 s.k imm ++ halfOf x 0#1 : Word).toNat = immediateNumber s imm * 2 ^ 16 + x.toNat % 2 ^ 16 := by
  refine (append_toNat (kImm5 s.k imm) (halfOf x 0#1)).trans ?_
  rw [kImm5_toNat, halfOf_zero_toNat, immediateNumber]

/-- Four copies of a byte are its product with 0x01010101 (R211). -/
theorem fillByte_toNat (x : Word) : (fillByte x).toNat = (x.toNat % 2 ^ 8) * 0x01010101 := by
  have happend : (fillByte x).toNat = (((byteOf x 0#2).toNat * 2 ^ 8 + (byteOf x 0#2).toNat) * 2 ^ 8 +
      (byteOf x 0#2).toNat) * 2 ^ 8 + (byteOf x 0#2).toNat := by
    rw [← append_toNat, ← append_toNat, ← append_toNat, fillByte]
  rw [happend, byteOf_zero_toNat]
  ring

/-- Two copies of a half-word are its product with 0x00010001 (R212). -/
theorem fillHalf_toNat (x : Word) : (fillHalf x).toNat = (x.toNat % 2 ^ 16) * 0x00010001 := by
  refine (append_toNat (halfOf x 0#1) (halfOf x 0#1)).trans ?_
  rw [halfOf_zero_toNat]
  ring

/-! ### The statements -/

/-- Settles O36: MOV and MOVI need RA only inside the file, MOVHI also keeps its low half-word. -/
theorem movesWriteRegister : Obligations.MovesWriteRegister := by
  intro s a ha
  refine ⟨fun b y hy => ⟨decodeWord_encode (.mov a b), ?mov⟩, fun imm => ⟨decodeWord_encode (.movi a imm), ?movi⟩,
    fun imm x hx => ⟨decodeWord_encode (.movhi a imm), ?movhi⟩⟩
  case mov => exact ⟨_, execMov_eq ha hy, .of_advance ha y⟩
  case movi => exact ⟨_, _, execMovi_eq ha imm, imm16_toNat s.k imm, .of_advance ha _⟩
  case movhi => exact ⟨_, _, unary_eq hx _, kImm5_append_halfOf_toNat s imm x, .of_advance ha _⟩

/-- Settles O38: RA is read before %r0 is written, and %r0 lies inside the file because RA does. -/
theorem fillsReplicateIntoR0 : Obligations.FillsReplicateIntoR0 := by
  intro s a x hx
  have h0 := phys_regR0_lt hx
  exact ⟨⟨decodeWord_encode (.fill8 a), _, _, execFill8_eq hx, fillByte_toNat x, .of_advance h0 _⟩,
    ⟨decodeWord_encode (.fill16 a), _, _, execFill16_eq hx, fillHalf_toNat x, .of_advance h0 _⟩⟩

/-- Settles O39: a PFX is a sequential end that leaves IMM11 in K, and PFXF alone decides whether it is refused. -/
theorem prefixLoadsK : Obligations.PrefixLoadsK := by
  intro s imm hds
  refine ⟨decodeWord_encode (.pfx imm), fun hp => ?first, fun hp => execPfx_refused hds hp imm⟩
  case first =>
    have hpc : AddressIs s.next (s.pc.toNat + 2) := next_of_ds_none hds ▸ .add_two s.pc
    exact ⟨_, execPfx_eq hds hp imm, rfl, rfl, hpc, rfl, Untouched.of_advance s⟩

end Sys2Proof.Machine
end

section
/-! The statement of 44_control_flow.md about delay slots (R262): an instruction that may stand in one is made of
operations that each refuse under a name of their own. -/

namespace Sys2Proof.Machine

variable {s : State} {a b : RegIdx}

theorem outsideDelaySlot_refused (h : s.ds ≠ none) (rest : Out) :
    outsideDelaySlot s rest = .refused .barredInDelaySlot :=
  if_pos (Option.isSome_iff_ne_none.mpr h)

/-- What a meaning answers is not the refusal of a barred instruction. -/
def Unbarred (o : Out) : Prop := o ≠ .refused .barredInDelaySlot

/-! ### The shared operations -/

theorem Unbarred.of_readReg {rest : Word → Out} (h : ∀ x, Unbarred (rest x)) : Unbarred (readReg s a rest) := by
  unfold readReg
  split
  · exact h _
  · exact nofun

theorem Unbarred.of_writeReg {v : Word} {rest : State → Out} (h : ∀ t, Unbarred (rest t)) :
    Unbarred (writeReg s a v rest) := by
  unfold writeReg
  split
  · exact h _
  · exact nofun

theorem Unbarred.of_loadWord {addr : Nat} {rest : Word → Out} (h : ∀ v, Unbarred (rest v)) :
    Unbarred (loadWord s addr rest) := by
  unfold loadWord
  split
  · exact h _
  · exact nofun

theorem Unbarred.of_loadHalf {addr : Nat} {rest : Half → Out} (h : ∀ w, Unbarred (rest w)) :
    Unbarred (loadHalf s addr rest) := by
  unfold loadHalf
  split
  · exact h _
  · exact nofun

theorem Unbarred.of_storeAndFinish {addr : Nat} {vs : List Byte} : Unbarred (storeAndFinish s addr vs) := by
  unfold storeAndFinish
  split <;> exact nofun

theorem Unbarred.of_finish : Unbarred (finish s) := nofun

/-- The write of a register that ends an instruction. -/
theorem Unbarred.of_writeReg_finish {v : Word} : Unbarred (writeReg s a v finish) :=
  .of_writeReg fun _ => .of_finish

theorem Unbarred.of_beforeNop {rest : Out} (h : Unbarred rest) : Unbarred (beforeNop s rest) := by
  refine .of_loadHalf fun _ => ?_
  split
  · exact h
  · exact nofun

theorem Unbarred.of_writeControl {v : Word} (c : ControlReg) : Unbarred (writeControl s v c) := by
  cases c with
  | status => exact .of_beforeNop .of_finish
  | istatus | wvalid | clrIe | setIe => exact .of_finish

theorem Unbarred.of_enterException {n : BitVec 6} {ret : Addr} {u : Bool} : Unbarred (enterException s n ret u) := by
  unfold enterException
  split
  · exact .of_writeReg fun _ => .of_loadWord fun _ => nofun
  · exact nofun

/-! ### The shapes of instructions -/

theorem Unbarred.of_unary {f : Word → Word} : Unbarred (unary s a f) :=
  .of_readReg fun _ => .of_writeReg_finish

theorem Unbarred.of_binary {f : Word → Word → Word} : Unbarred (binary s a b f) :=
  .of_readReg fun _ => .of_readReg fun _ => .of_writeReg_finish

theorem Unbarred.of_logicOp {op : Word → Word → Word} : Unbarred (logicOp s a b op) := by
  refine .of_readReg fun _ => ?_
  unfold logicOperand
  split
  · exact .of_writeReg_finish
  · exact .of_readReg fun _ => .of_writeReg_finish

/-- The two operands of ADD, SUB, MSTEP and MUL, and the write of one register. -/
theorem Unbarred.of_read_read_write {c : RegIdx} {u : Word → Word → State} {f : Word → Word → Word} :
    Unbarred (readReg s a fun x => readReg s b fun y => writeReg (u x y) c (f x y) finish) :=
  .of_readReg fun _ => .of_readReg fun _ => .of_writeReg_finish

/-- One operand, and the write of one register. -/
theorem Unbarred.of_read_write {c : RegIdx} {u : Word → State} {f : Word → Word} :
    Unbarred (readReg s a fun x => writeReg (u x) c (f x) finish) :=
  .of_readReg fun _ => .of_writeReg_finish

theorem Unbarred.of_load {addr : Word → Word} : Unbarred (readReg s b fun base => loadTo s a (addr base)) :=
  .of_readReg fun _ => .of_loadWord fun _ => .of_writeReg_finish

/-- The nine stores: an address register, a data register, and the bytes to write. -/
theorem Unbarred.of_store {addr : Word → Nat} {bytes : Word → Word → List Byte} :
    Unbarred (readReg s b fun base => readReg s a fun v => storeAndFinish s (addr base) (bytes base v)) :=
  .of_readReg fun _ => .of_readReg fun _ => .of_storeAndFinish

theorem Unbarred.of_execSave {imm : BitVec 8} : Unbarred (execSave imm s) := by
  refine .of_readReg fun _ => .of_writeReg fun _ => ?_
  split
  · exact .of_enterException
  · exact .of_finish

theorem Unbarred.of_execRestore : Unbarred (execRestore s) := by
  unfold execRestore
  split
  · exact .of_enterException
  · exact .of_finish

theorem Unbarred.of_execWrctl : Unbarred (execWrctl a s) := by
  refine .of_readReg fun _ => ?_
  split
  · exact .of_writeControl _
  · exact nofun

theorem Unbarred.of_execRdctl : Unbarred (execRdctl a s) := by
  unfold execRdctl
  split
  · exact .of_writeReg_finish
  · exact nofun

/-! ### The statement -/

theorem exec_barred {i : Instr} (hi : i.barredFromSlot = true) (hds : s.ds ≠ none) :
    exec i s = .refused .barredInDelaySlot := by
  cases i with
  | br | bsr | jmp | call | pfx | skp0 | skp1 | skprz | skprnz | skps | tret | trap =>
    exact outsideDelaySlot_refused hds _
  | _ => cases hi

theorem exec_unbarred {i : Instr} (hi : i.barredFromSlot = false) : Unbarred (exec i s) := by
  cases i with
  | not | neg | abs | sext8 | sext16 | swap | lsli | lsri | asri | movhi | ext8s | ext16s => exact .of_unary
  | lsl | lsr | asr | ext8d | ext16d => exact .of_binary
  | and | andn | or | xor => exact .of_logicOp
  | add | sub | mstep | mul => exact .of_read_read_write
  | addi | subi | rlc | rrc | mov | fill8 | fill16 => exact .of_read_write
  | cmp => exact .of_readReg fun _ => .of_readReg fun _ => .of_finish
  | cmpi => exact .of_readReg fun _ => .of_finish
  | movi | bgen => exact .of_writeReg_finish
  | ld | ldp | lds => exact .of_load
  | st | stp | sts | st8d | st8s | sts8s | st16d | st16s | sts16s => exact .of_store
  | save => exact .of_execSave
  | restore => exact .of_execRestore
  | wrctl => exact .of_execWrctl
  | rdctl => exact .of_execRdctl
  | usr0 | usr1 | usr2 | usr3 | usr4 => exact nofun
  | _ => cases hi

/-- Settles O20: the twelve test DS before anything else, and no operation of the others refuses under their name. -/
theorem barredFromDelaySlot : Obligations.BarredFromDelaySlot :=
  fun _ _ => ⟨exec_barred, exec_unbarred⟩

end Sys2Proof.Machine
end

section
/-! The statements of 44_control_flow.md about the delayed branches (R263 to R266) and the skips (R270 to R275): the
state each shape of instruction completes in, the addresses as exact numbers, and from these the statements. -/

namespace Sys2Proof.Machine

variable {s t : State} {a : RegIdx} {x : Word}

/-! ### Addresses as exact numbers -/

/-- A sum taken modulo 2^33 is the exact sum where that is an address (10_state.md R52). -/
theorem AddressIs.ofInt (n : Int) : AddressIs (BitVec.ofInt 33 n) n := by
  intro hpos hfits
  rw [BitVec.toNat_ofInt]
  omega

theorem AddressIs.add_ofNat (p : Addr) (n : Nat) : AddressIs (p + BitVec.ofNat 33 n) (p.toNat + n) := by
  intro _ hfits
  rw [BitVec.toNat_add, BitVec.toNat_ofNat]
  omega

/-- The offset counts half-words from the instruction after the branch (R263). -/
theorem branchTarget_eq_ofInt (pc : Addr) (imm : BitVec 11) :
    branchTarget pc imm = BitVec.ofInt 33 (pc.toNat + 2 * (imm.toInt + 1)) := by
  rw [BitVec.ofInt_add, BitVec.ofInt_mul, BitVec.ofInt_add, BitVec.ofInt_natCast, BitVec.ofNat_toNat,
    BitVec.setWidth_eq, BitVec.mul_comm]
  rfl

theorem branchTarget_addressIs (pc : Addr) (imm : BitVec 11) :
    AddressIs (branchTarget pc imm) (pc.toNat + 2 * (imm.toInt + 1)) :=
  branchTarget_eq_ofInt pc imm ▸ .ofInt _

/-- The return address, past the branch and its delay slot (R264). -/
theorem linkWord_toNat (s : State) : (linkWord s).toNat = (s.pc.toNat + 4) / 2 % 2 ^ 32 := by
  rw [linkWord, codeWord_toNat, BitVec.toNat_add, BitVec.toNat_ofNat]
  omega

/-! ### The delayed branches -/

/-- The state a delayed branch leaves: the delay slot is next, and then the target (10_state.md R70, case (c)). -/
def delayedState (s : State) (target : Addr) : State :=
  { s.clearPrefix with pc := s.pc + 2#33, ds := some target }

theorem delayedTo_eq (s : State) (target : Addr) : delayedTo s target = .next (delayedState s target) := rfl

theorem delayedState_untouched (s : State) (target : Addr) : Untouched s (delayedState s target) :=
  Untouched.of_advance s

theorem delayedState_putReg_writesRegister (h : s.phys a < s.regs.length) (v : Word) (target : Addr) :
    WritesRegister s (delayedState (s.putReg a v) target) a v :=
  WritesRegister.of_advance h v

theorem execBr_eq (hds : s.ds = none) (imm : BitVec 11) :
    execBr imm s = .next (delayedState s (branchTarget s.pc imm)) := by
  rw [execBr, outsideDelaySlot_eq hds, delayedTo_eq]

theorem execBsr_eq (hds : s.ds = none) (h7 : s.phys regO7 < s.regs.length) (imm : BitVec 11) :
    execBsr imm s = .next (delayedState (s.putReg regO7 (linkWord s)) (branchTarget s.pc imm)) := by
  rw [execBsr, outsideDelaySlot_eq hds, writeReg_eq h7, delayedTo_eq]

theorem execJmp_eq (hds : s.ds = none) (hx : s.reg? a = some x) :
    execJmp a s = .next (delayedState s (codeAddr x)) := by
  rw [execJmp, outsideDelaySlot_eq hds, readReg_eq hx, delayedTo_eq]

theorem execCall_eq (hds : s.ds = none) (hx : s.reg? a = some x) (h7 : s.phys regO7 < s.regs.length) :
    execCall a s = .next (delayedState (s.putReg regO7 (linkWord s)) (codeAddr x)) := by
  rw [execCall, outsideDelaySlot_eq hds, readReg_eq hx, writeReg_eq h7, delayedTo_eq]

/-- Settles O46: the target and the link both come from the pc of the branch, as exact numbers. -/
theorem branchesAreDelayed : Obligations.BranchesAreDelayed := by
  intro s imm hds
  have hpc : AddressIs (s.pc + 2#33) (s.pc.toNat + 2) := .add_two s.pc
  have htarget := branchTarget_addressIs s.pc imm
  refine ⟨⟨decodeWord_encode (.br imm), ?br⟩, fun h7 => ⟨decodeWord_encode (.bsr imm), ?bsr⟩⟩
  case br => exact ⟨_, _, execBr_eq hds imm, hpc, rfl, htarget, delayedState_untouched ..⟩
  case bsr =>
    exact ⟨_, _, _, execBsr_eq hds h7 imm, hpc, rfl, htarget, linkWord_toNat s,
      delayedState_putReg_writesRegister h7 ..⟩

/-- Settles O47: RA is read before %o7 is written, so the target is twice the old RA for A = 15 too. -/
theorem jumpsAreDelayed : Obligations.JumpsAreDelayed := by
  intro s a x hds hx
  have hpc : AddressIs (s.pc + 2#33) (s.pc.toNat + 2) := .add_two s.pc
  refine ⟨⟨decodeWord_encode (.jmp a), ?jmp⟩, fun h7 => ⟨decodeWord_encode (.call a), ?call⟩⟩
  case jmp => exact ⟨_, _, execJmp_eq hds hx, hpc, rfl, codeAddr_toNat x, delayedState_untouched ..⟩
  case call =>
    exact ⟨_, _, _, execCall_eq hds hx h7, hpc, rfl, codeAddr_toNat x, linkWord_toNat s,
      delayedState_putReg_writesRegister h7 ..⟩

/-! ### The skips -/

theorem nextIsPrefix_iff (s : State) :
    NextIsPrefix s ↔ isPfxWord (Memory.readHalf s.mem (s.pc + 2#33).toNat) = true := by
  rw [isPfxWord_readHalf, beq_iff_eq, NextIsPrefix]

/-- Only a skip whose test holds looks at the next half-word. -/
theorem skipIf_completes {test : Bool} (h : test = true → NextFetchable s) : ∃ t, skipIf s test = .next t := by
  cases test with
  | false => exact ⟨_, rfl⟩
  | true =>
    obtain ⟨hbacked, hfresh⟩ := h rfl
    exact ⟨_, skipIf_true hbacked hfresh⟩

/-- Where a skip ends, in the words of R270. -/
theorem SkipEnds.of_skippedTo {test : Bool} {holds : Prop} (hds : s.ds = none) (htest : holds ↔ test = true)
    (h : SkippedTo s t test) : SkipEnds s t holds := by
  obtain ⟨hfalse, rfl⟩ | ⟨htrue, rfl⟩ := h
  · have hnot : ¬ holds := by simp [htest, hfalse]
    have hpc : AddressIs s.next (s.pc.toNat + 2) := next_of_ds_none hds ▸ .add_two s.pc
    exact ⟨.of_advance s, rfl, fun _ => hpc, fun h => absurd h hnot, fun h => absurd h hnot⟩
  · refine ⟨Untouched.of_advance s, hds, fun h => absurd (htest.mpr htrue) h, fun _ hpfx => ?pfx, fun _ hpfx => ?single⟩
    case pfx =>
      rw [if_pos ((nextIsPrefix_iff s).mp hpfx)]
      exact .add_ofNat s.pc 6
    case single =>
      rw [if_neg (mt (nextIsPrefix_iff s).mpr hpfx)]
      exact .add_ofNat s.pc 4

theorem skipIf_skipEnds {test : Bool} {holds : Prop} (hds : s.ds = none) (htest : holds ↔ test = true)
    (hnext : holds → NextFetchable s) : ∃ t, skipIf s test = .next t ∧ SkipEnds s t holds := by
  obtain ⟨t, ht⟩ := skipIf_completes fun h => hnext (htest.mpr h)
  exact ⟨t, ht, .of_skippedTo hds htest (skipIf_ends ht)⟩

/-- SKP0, SKP1, SKPRz and SKPRnz are one shape, with the test taken of the register. -/
theorem skipOnRegister_skipEnds {holds : Prop} (hds : s.ds = none) (hx : s.reg? a = some x) (test : Word → Bool)
    (htest : holds ↔ test x = true) (hnext : holds → NextFetchable s) :
    ∃ t, outsideDelaySlot s (readReg s a fun y => skipIf s (test y)) = .next t ∧ SkipEnds s t holds := by
  rw [outsideDelaySlot_eq hds, readReg_eq hx]
  exact skipIf_skipEnds hds htest hnext

theorem exec_skps_eq (hds : s.ds = none) {cond : BitVec 4} {test : Bool}
    (hcond : conditionHolds cond s.status.flags = some test) : exec (.skps cond) s = skipIf s test := by
  rw [exec, execSkps, outsideDelaySlot_eq hds, hcond]

theorem exec_skps_refused (hds : s.ds = none) {cond : BitVec 4} (hcond : conditionHolds cond s.status.flags = none) :
    exec (.skps cond) s = .refused .unassignedCondition := by
  rw [exec, execSkps, outsideDelaySlot_eq hds, hcond]

/-- SKPS skips where the Boolean that the table gives its code says so. -/
theorem exec_skps_skipEnds {cond : BitVec 4} {f : Flags} {test : Bool} {holds : Prop} (hds : s.ds = none)
    (hflags : s.status.flags = f) (hcond : conditionHolds cond f = some test) (htest : holds ↔ test = true)
    (hnext : holds → NextFetchable s) : ∃ t, exec (.skps cond) s = .next t ∧ SkipEnds s t holds := by
  rw [exec_skps_eq hds (hflags ▸ hcond)]
  exact skipIf_skipEnds hds htest hnext

/-- Settles O48: each instruction is the shape of a skip on a register, with its test as a Boolean. -/
theorem skipsOnRegister : Obligations.SkipsOnRegister := by
  intro s a x hds hx
  have hzero : x.toNat = 0 ↔ (x == 0#32) = true := by rw [beq_zero_eq_decide, decide_eq_true_iff]
  refine ⟨fun imm => ⟨decodeWord_encode (.skp0 a imm), ?skp0⟩, fun imm => ⟨decodeWord_encode (.skp1 a imm), ?skp1⟩,
    ⟨decodeWord_encode (.skprz a), ?skprz⟩, ⟨decodeWord_encode (.skprnz a), ?skprnz⟩⟩
  case skp0 => exact skipOnRegister_skipEnds hds hx (fun y => !bitOf y imm) (by simp [bitOf])
  case skp1 => exact skipOnRegister_skipEnds hds hx (bitOf · imm) Iff.rfl
  case skprz => exact skipOnRegister_skipEnds hds hx (· == 0#32) hzero
  case skprnz => exact skipOnRegister_skipEnds hds hx (· != 0#32) (by simp [hzero])

/-- Settles O49: the model's table gives each code its Boolean, which says of the flags what the code's clause says. -/
theorem skipsOnCondition : Obligations.SkipsOnCondition := by
  intro s cond n v z c hds hflags
  refine ⟨decodeWord_encode (.skps cond), fun test hcode => ?condition, fun hcode => ?unassigned⟩
  case condition =>
    obtain ⟨rfl, htest⟩ | ⟨rfl, htest⟩ | ⟨rfl, htest⟩ | ⟨rfl, htest⟩ | ⟨rfl, htest⟩ | ⟨rfl, htest⟩ | ⟨rfl, htest⟩ |
      ⟨rfl, htest⟩ | ⟨rfl, htest⟩ | ⟨rfl, htest⟩ | ⟨rfl, htest⟩ | ⟨rfl, htest⟩ | ⟨rfl, htest⟩ | ⟨rfl, htest⟩ := hcode
    all_goals exact exec_skps_skipEnds hds hflags rfl (htest.trans (by simp))
  case unassigned =>
    obtain rfl | rfl := hcode
    all_goals exact exec_skps_refused hds (hflags ▸ rfl)

end Sys2Proof.Machine
end

section
/-! The statements of 45_system.md about TRAP and TRET (R294, R296), RDCTL (R297) and the reserved opcodes (R300 to
R304). The exception sequence is read once as R336 words it, for every instruction that enters an exception; STATUS and
WVALID are read once as the bits of a register value. -/

namespace Sys2Proof.Machine

variable {s : State} {a : RegIdx} {x : Word} {n : BitVec 6}

/-! ### Entering an exception -/

/-- The handler's window is tested as a whole, but for the entry at CWP = 0 (60_exceptions.md R340). -/
theorem HandlerWindow.hasHandlerWindow (hw : HandlerWindow s s.status.cwp) : s.hasHandlerWindow false = true := by
  obtain ⟨-, hwhole⟩ := hw
  by_cases hzero : s.status.cwp = 0#5
  · exact hasHandlerWindow_iff.mpr (.inr (.inl hzero))
  · exact hasHandlerWindow_iff.mpr (.inr (.inr (hwhole hzero)))

/-- The entry of a vector is where the constraints on VECBASE put it (R322, R323). -/
theorem VectorBacked.vectorAddr_eq (hv : VectorBacked s n) : vectorAddr s.cfg n = vectorEntry s n :=
  Machine.vectorAddr_eq hv.1 n

/-- An exception that has a window for its handler and a vector entry to go to is entered. -/
theorem enterException_eq_enteredState (hw : HandlerWindow s s.status.cwp) (hv : VectorBacked s n) (ret : Addr) :
    enterException s n ret false = .next (enteredState s n ret false) := by
  have hO7 : (s.exceptionStatus n false).phys regO7 < s.regs.length := hw.1
  have hbacked : bytesBacked s.cfg (vectorAddr s.cfg n) 4 = true := hv.vectorAddr_eq ▸ hv.2
  exact enterException_eq hw.hasHandlerWindow hO7 hbacked

/-- The entered state in the words of R336, for the underflow exception of SAVE too. -/
theorem enteredState_exceptionEntered {underflow : Bool}
    (hO7 : InFile s (s.exceptionStatus n underflow).status.cwp regO7) (hv : VectorBacked s n) (ret : Addr) :
    ExceptionEntered s (enteredState s n ret underflow) s.status (s.exceptionStatus n underflow).status.cwp n ret := by
  have hlink : (enteredState s n ret underflow).reg? regO7 = some (codeWord ret) :=
    putReg_reg?_self (s := s.exceptionStatus n underflow) hO7
  have hentry : WordAt s.mem (vectorEntry s n) (Memory.readWord s.mem (vectorAddr s.cfg n)) :=
    hv.vectorAddr_eq ▸ .of_readWord _ _
  exact ⟨rfl, rfl, rfl, rfl, rfl, ⟨_, hlink, codeWord_toNat ret⟩, ⟨_, hentry, codeAddr_toNat _⟩, rfl, rfl, rfl,
    rfl, rfl, fun _ => rfl⟩

/-- An exception entry writes no general register but %o7 of the handler's window. -/
theorem enteredState_sameRegistersBut (s : State) (n : BitVec 6) (ret : Addr) (underflow : Bool) :
    SameRegistersBut s (enteredState s n ret underflow)
      [physIndex (s.exceptionStatus n underflow).status.cwp regO7] :=
  .of_putReg (s.exceptionStatus n underflow) _ regO7 (codeWord ret) rfl

/-! ### The state each instruction completes in -/

theorem execTrap_eq (hds : s.ds = none) (hw : HandlerWindow s s.status.cwp) (hv : VectorBacked s n) :
    execTrap n s = .next (enteredState s n (s.pc + 2#33) false) := by
  rw [execTrap, outsideDelaySlot_eq hds, enterException_eq_enteredState hw hv]

theorem execTret_eq (hds : s.ds = none) (hx : s.reg? a = some x) :
    execTret a s =
      .next { s.clearPrefix with status := s.istatus, pc := codeAddr x, ds := none, stored := [] } := by
  rw [execTret, outsideDelaySlot_eq hds, readReg_eq hx, returnFromException]

theorem execRdctl_eq (ha : s.phys a < s.regs.length) {c : ControlReg} (hc : controlReg s.k = some c) :
    execRdctl a s = .next (State.putReg { s with freeCount := s.freeCount + 1 } a
      (controlValue s (Config.freeWord s.freeCount) c)).advance := by
  rw [execRdctl, hc]
  exact writeReg_eq (s := { s with freeCount := s.freeCount + 1 }) ha _ finish

theorem execRdctl_refused (hc : controlReg s.k = none) :
    execRdctl a s = .refused (.undefinedControlRegister s.k.toNat) := by
  rw [execRdctl, hc]

/-! ### Control registers as bits of a register value -/

/-- STATUS and ISTATUS are the low half-word (10_state.md R58). -/
theorem statusBits_iff (st : Status) (v : Word) : StatusBits st v ↔ Status.ofWord (v.extractLsb' 0 16) = st := by
  obtain ⟨ie, ipri, cwp, ⟨n, v, z, c⟩⟩ := st
  simp [StatusBits, Status.ofWord, eq_comm]

/-- WVALID is the low ten bits (R60). -/
theorem wvalidBits_iff (w : Wvalid) (v : Word) : WvalidBits w v ↔ Wvalid.ofBits (v.extractLsb' 0 10) = w := by
  obtain ⟨hi, lo⟩ := w
  simp [WvalidBits, Wvalid.ofBits, eq_comm]

/-- Whatever stands above them, the low 16 bits are STATUS. -/
theorem StatusBits.of_append (high : Half) (st : Status) : StatusBits st (high ++ st.toWord) := by
  rw [statusBits_iff]
  exact (congrArg Status.ofWord BitVec.extractLsb'_append_eq_right).trans (Status.ofWord_toWord st)

/-- Whatever stands above them, the low 10 bits are WVALID. -/
theorem WvalidBits.of_append (high : BitVec 22) (w : Wvalid) : WvalidBits w (high ++ w.toBits) := by
  rw [wvalidBits_iff]
  exact (congrArg Wvalid.ofBits BitVec.extractLsb'_append_eq_right).trans (Wvalid.ofBits_toBits w)

/-- Indices 3 to 7 and 10 to 2047 name no control register (R64). -/
theorem controlReg_eq_none {k : BitVec 11} (hk : (3 ≤ k.toNat ∧ k.toNat ≤ 7) ∨ 10 ≤ k.toNat) :
    controlReg k = none := by
  refine Option.eq_none_iff_forall_ne_some.mpr fun c hc => ?_
  obtain ⟨rfl, -⟩ | ⟨rfl, -⟩ | ⟨rfl, -⟩ | ⟨rfl, -⟩ | ⟨rfl, -⟩ := controlReg_eq hc
  all_goals simp at hk

/-- RDCTL with an index that names a control register writes RA alone; the value is the register's, completed by free
bits. -/
theorem execRdctl_writesRegister (ha : s.phys a < s.regs.length) {k : BitVec 11} (hk : s.k = k) {c : ControlReg}
    (hc : controlReg k = some c) :
    ∃ t, exec (.rdctl a) s = .next t ∧
      WritesRegister s t a (controlValue s (Config.freeWord s.freeCount) c) :=
  ⟨_, execRdctl_eq ha (hk ▸ hc), WritesRegister.of_advance (s := { s with freeCount := s.freeCount + 1 }) ha _⟩

/-- Bits that RA shows whatever the free ones are, RDCTL delivers. -/
theorem execRdctl_delivers (ha : s.phys a < s.regs.length) {k : BitVec 11} (hk : s.k = k) {c : ControlReg}
    (hc : controlReg k = some c) {bits : Word → Prop} (hbits : ∀ free, bits (controlValue s free c)) :
    ∃ t v, exec (.rdctl a) s = .next t ∧ bits v ∧ WritesRegister s t a v :=
  have ⟨t, ht, hwrites⟩ := execRdctl_writesRegister ha hk hc
  ⟨t, _, ht, hbits _, hwrites⟩

/-! ### The statements -/

/-- Settles O58: the five meanings are the refusal itself. -/
theorem reservedOpcodesRefused : Obligations.ReservedOpcodesRefused := by
  intro s a b
  exact ⟨⟨decodeWord_encode (.usr0 a b), rfl⟩, ⟨decodeWord_encode (.usr1 a), rfl⟩,
    ⟨decodeWord_encode (.usr2 a), rfl⟩, ⟨decodeWord_encode (.usr3 a), rfl⟩, ⟨decodeWord_encode (.usr4 a), rfl⟩⟩

/-- Settles O53: TRAP enters its exception whatever IE and IPRI are, with the return address after itself. -/
theorem trapEntersHandler : Obligations.TrapEntersHandler := by
  intro s n hds hw hv
  have hentered : ExceptionEntered s (enteredState s n (s.pc + 2#33) false) s.status (s.status.cwp - 1#5) n
      (s.pc + 2#33) := enteredState_exceptionEntered hw.1 hv _
  exact ⟨decodeWord_encode (.trap n), _, _, execTrap_eq hds hw hv, .add_two s.pc, hentered,
    enteredState_sameRegistersBut s n _ false⟩

/-- Settles O54: RA is read before STATUS is replaced, so in the handler's window. -/
theorem trapReturnRestoresStatus : Obligations.TrapReturnRestoresStatus := by
  intro s a x hds hx
  exact ⟨decodeWord_encode (.tret a), _, execTret_eq hds hx, rfl, codeAddr_toNat x, rfl, rfl, rfl, rfl, rfl,
    fun _ => rfl⟩

/-- Settles O56: K selects the control register, and with it the bits of RA that are not free. -/
theorem readControlRegister : Obligations.ReadControlRegister := by
  intro s a ha
  refine ⟨decodeWord_encode (.rdctl a), fun hk => ?status, fun hk => ?istatus, fun hk => ?wvalid, fun hk => ?enable,
    fun hk => execRdctl_refused (controlReg_eq_none hk)⟩
  case status => exact execRdctl_delivers ha hk rfl fun _ => StatusBits.of_append ..
  case istatus => exact execRdctl_delivers ha hk rfl fun _ => StatusBits.of_append ..
  case wvalid => exact execRdctl_delivers ha hk rfl fun _ => WvalidBits.of_append ..
  case enable =>
    obtain hk | hk := hk
    all_goals
      obtain ⟨t, ht, hwrites⟩ := execRdctl_writesRegister ha hk rfl
      exact ⟨t, _, ht, hwrites⟩

end Sys2Proof.Machine
end

section
/-! The statements of 30_encoding.md about decoding and encoding (R110, R111, R118, R124): the two are inverse to each
other, and a word with a one in a fixed-zero bit is refused in exactly the formats that have one. -/

namespace Sys2Proof

/-! ### The bytes of a word -/

/-- A word is its two bytes, the second one high (R81). -/
theorem wordOfBytes_bytes (w : Half) : wordOfBytes (w.extractLsb' 0 8) (w.extractLsb' 8 8) = w :=
  (BitVec.extractLsb'_append_extractLsb'_eq_extractLsb' rfl).trans BitVec.extractLsb'_eq_self

/-- Settles O1: the two bytes of the encoding are put together again, and the word they make decodes to `i`. -/
theorem decodeOfEncodeIsIdentity : Obligations.DecodeOfEncodeIsIdentity := by
  intro i rest
  refine ⟨decodeWord_encode i, ?_⟩
  change (decodeWord (wordOfBytes _ _)).map _ = _
  rw [wordOfBytes_bytes, decodeWord_encode]
  rfl

/-- Settles O6: each word is the encoder's for its instruction. -/
theorem sampleWordsDecode : Obligations.SampleWordsDecode :=
  ⟨decodeWord_encode (.add 19#5 0#5), decodeWord_encode (.addi 21#5 6#5), decodeWord_encode (.mov 0#5 0#5),
    decodeWord_encode (.ld 0#5 27#5), decodeWord_encode (.st 27#5 0#5), decodeWord_encode (.ldp 2#2 3#5 11#5),
    decodeWord_encode (.sts 17#8 29#5), decodeWord_encode (.save 23#8), decodeWord_encode (.tret 15#5),
    decodeWord_encode (.skps 3#4), decodeWord_encode (.bsr 16#11), decodeWord_encode (.pfx 3#11)⟩

/-! ### The words refused for a fixed-zero bit (R124) -/

theorem whenZero_eq_nonzeroFixedBits_iff (zero : Bool) (i : Instr) :
    whenZero zero i = .error .nonzeroFixedBits ↔ zero = false := by
  cases zero <;> simp [whenZero]

theorem decodeU_eq_nonzeroFixedBits_iff (w : Half) : decodeU w = .error .nonzeroFixedBits ↔
    (w.extractLsb' 7 3 = 0b001#3 ∨ w.extractLsb' 7 3 = 0b101#3) ∧ w.getLsbD 5 = true := by
  unfold decodeU
  generalize w.extractLsb' 7 3 = op
  split
  case h_5 => simp_all
  all_goals simp [whenZero_eq_nonzeroFixedBits_iff]

theorem decodeV_eq_nonzeroFixedBits_iff (w : Half) : decodeV w = .error .nonzeroFixedBits ↔
    w.extractLsb' 8 2 = 0b01#2 ∧ w.extractLsb' 6 2 ≠ 0b00#2 := by
  unfold decodeV
  generalize w.extractLsb' 8 2 = op
  split
  case h_3 => simp_all
  all_goals simp [whenZero_eq_nonzeroFixedBits_iff]

theorem decodeW_eq_nonzeroFixedBits_iff (w : Half) : decodeW w = .error .nonzeroFixedBits ↔
    (w.extractLsb' 5 5 = 0b10111#5 ∧ w.getLsbD 4 = true) ∨
      (w.extractLsb' 5 5 = 0b01101#5 ∧ w.extractLsb' 0 5 ≠ 0b00000#5) := by
  unfold decodeW
  generalize w.extractLsb' 5 5 = op
  split
  case h_28 => simp_all
  all_goals simp [whenZero_eq_nonzeroFixedBits_iff, fieldA]

theorem decodeLow_eq_nonzeroFixedBits_iff (w : Half) : decodeLow w = .error .nonzeroFixedBits ↔
    (w.extractLsb' 10 5 = 0b11101#5 ∧ decodeU w = .error .nonzeroFixedBits) ∨
      (w.extractLsb' 10 5 = 0b11001#5 ∧ w.getLsbD 0 = true) ∨
      (w.extractLsb' 10 5 = 0b11110#5 ∧ decodeV w = .error .nonzeroFixedBits) ∨
      (w.extractLsb' 10 5 = 0b11111#5 ∧ decodeW w = .error .nonzeroFixedBits) := by
  unfold decodeLow
  generalize w.extractLsb' 10 5 = op
  split
  case h_32 =>
    have hop : op = 0b11111#5 := by
      simp only [imp_false] at *
      bv_omega
    simp [hop]
  all_goals simp [whenZero_eq_nonzeroFixedBits_iff]

theorem decodeWord_eq_nonzeroFixedBits_iff (w : Half) : decodeWord w = .error .nonzeroFixedBits ↔
    w.extractLsb' 13 3 < 0b100#3 ∧ decodeLow w = .error .nonzeroFixedBits := by
  unfold decodeWord
  generalize w.extractLsb' 13 3 = top
  split
  case h_3 => split <;> simp
  case h_4 => split <;> simp
  case h_5 =>
    have htop : top < 0b100#3 := by
      simp only [imp_false] at *
      bv_omega
    simp [htop]
  all_goals simp

/-! ### Runs of bits (R111) -/

theorem append_eq_append_iff {m n : Nat} {hi hi' : BitVec n} {lo lo' : BitVec m} :
    hi ++ lo = hi' ++ lo' ↔ hi = hi' ∧ lo = lo' where
  mp h := by
    have hhi := congrArg (BitVec.extractLsb' m n) h
    have hlo := congrArg (BitVec.extractLsb' 0 m) h
    rw [BitVec.extractLsb'_append_eq_left, BitVec.extractLsb'_append_eq_left] at hhi
    rw [BitVec.extractLsb'_append_eq_right, BitVec.extractLsb'_append_eq_right] at hlo
    exact ⟨hhi, hlo⟩
  mpr := fun ⟨hhi, hlo⟩ => by rw [hhi, hlo]

/-- A run of bits of a word is read as its high part and its low part. -/
theorem extractLsb'_eq_append_iff {w : Half} {start m n : Nat} {hi : BitVec n} {lo : BitVec m} :
    w.extractLsb' start (n + m) = hi ++ lo ↔ w.extractLsb' (start + m) n = hi ∧ w.extractLsb' start m = lo := by
  rw [← BitVec.extractLsb'_append_extractLsb'_eq_extractLsb' rfl, append_eq_append_iff]

/-- Settles O5: each table refuses the words of its own formats, and the bits that lead to the table are the rest of the
format's opcode. -/
theorem fixedZeroBitsAreChecked : Obligations.FixedZeroBitsAreChecked := by
  intro w
  have hExt : w.extractLsb' 7 9 = 0b011101#6 ++ 0b001#3 ↔ _ := extractLsb'_eq_append_iff (m := 3)
  have hSt : w.extractLsb' 7 9 = 0b011101#6 ++ 0b101#3 ↔ _ := extractLsb'_eq_append_iff (m := 3)
  have hTrap : w.extractLsb' 8 8 = 0b011110#6 ++ 0b01#2 ↔ _ := extractLsb'_eq_append_iff (m := 2)
  have hSkps : w.extractLsb' 5 11 = 0b011111#6 ++ 0b10111#5 ↔ _ := extractLsb'_eq_append_iff (m := 5)
  have hRestore : w.extractLsb' 5 11 = 0b011111#6 ++ 0b01101#5 ↔ _ := extractLsb'_eq_append_iff (m := 5)
  have hSts := bits_15_10_eq_iff w 0b11001#5
  have hU := bits_15_10_eq_iff w 0b11101#5
  have hV := bits_15_10_eq_iff w 0b11110#5
  have hW := bits_15_10_eq_iff w 0b11111#5
  simp only [BitVec.reduceSetWidth, BitVec.reduceAppend] at hExt hSt hTrap hSkps hRestore hSts hU hV hW
  rw [decodeWord_eq_nonzeroFixedBits_iff, decodeLow_eq_nonzeroFixedBits_iff, decodeU_eq_nonzeroFixedBits_iff,
    decodeV_eq_nonzeroFixedBits_iff, decodeW_eq_nonzeroFixedBits_iff, hExt, hSt, hTrap, hSkps, hRestore, hSts, hU, hV,
    hW]
  simp only [and_or_left, or_and_right, and_assoc, or_assoc]

/-! ### The word of a decoded instruction (R111, R119) -/

theorem whenZero_eq_ok_iff {zero : Bool} {i j : Instr} : whenZero zero i = .ok j ↔ zero = true ∧ i = j := by
  cases zero <;> simp [whenZero]

/-- A word is put together from its high part and its low part. -/
theorem append_eq_word {m n : Nat} {w : BitVec (n + m)} {hi : BitVec n} {lo : BitVec m}
    (hhi : w.extractLsb' m n = hi) (hlo : w.extractLsb' 0 m = lo) : hi ++ lo = w := by
  rw [← hhi, ← hlo, BitVec.extractLsb'_append_extractLsb'_eq_extractLsb' (Nat.zero_add m).symm,
    BitVec.extractLsb'_eq_self]

/-- A run of one bit is that bit. -/
theorem extractLsb'_one_eq_ofBool (w : Half) {n : Nat} (hn : n < 16) : w.extractLsb' n 1 = BitVec.ofBool w[n] := by
  ext i hi
  obtain rfl : i = 0 := by omega
  simp [BitVec.getLsbD_eq_getElem hn]

/-- A fixed-zero bit that was checked (R124). -/
theorem extractLsb'_one_eq_zero {w : Half} {n : Nat} {hn : n < 16} (h : (!w[n]) = true) : w.extractLsb' n 1 = 0#1 := by
  have hbit : w[n] = false := by simpa using h
  rw [extractLsb'_one_eq_ofBool w hn, hbit]
  rfl

theorem formatRR_fields {w : Half} {op : BitVec 6} (hop : w.extractLsb' 10 6 = op) :
    formatRR op (fieldB w) (fieldA w) = w :=
  append_eq_word (m := 5) (extractLsb'_eq_append_iff (m := 5) |>.mpr ⟨hop, rfl⟩) rfl

theorem encode_of_decodeU {w : Half} {i : Instr} (hop : w.extractLsb' 10 6 = 0b011101#6) (h : decodeU w = .ok i) :
    encode i = w := by
  have lead {op3u : BitVec 3} (h3 : w.extractLsb' 7 3 = op3u) : w.extractLsb' 7 9 = 0b011101#6 ++ op3u :=
    extractLsb'_eq_append_iff.mpr ⟨hop, h3⟩
  unfold decodeU at h
  split at h
  case h_1 h3 | h_3 h3 =>
    cases h
    exact append_eq_word (m := 5) (extractLsb'_eq_append_iff (m := 2) |>.mpr ⟨lead h3, rfl⟩) rfl
  case h_2 h3 | h_4 h3 =>
    obtain ⟨h5, rfl⟩ := whenZero_eq_ok_iff.mp h
    have hzero : w.extractLsb' 5 1 = 0#1 := extractLsb'_one_eq_zero h5
    refine append_eq_word (m := 5) (extractLsb'_eq_append_iff (m := 1) |>.mpr ⟨?_, hzero⟩) rfl
    exact extractLsb'_eq_append_iff (m := 1) |>.mpr ⟨lead h3, rfl⟩
  case h_5 => cases h

theorem encode_of_decodeV {w : Half} {i : Instr} (hop : w.extractLsb' 10 6 = 0b011110#6) (h : decodeV w = .ok i) :
    encode i = w := by
  have lead {op2v : BitVec 2} (h2 : w.extractLsb' 8 2 = op2v) : w.extractLsb' 8 8 = 0b011110#6 ++ op2v :=
    extractLsb'_eq_append_iff.mpr ⟨hop, h2⟩
  unfold decodeV at h
  split at h
  case h_1 h2 =>
    cases h
    exact append_eq_word (m := 8) (lead h2) rfl
  case h_2 h2 =>
    obtain ⟨hzero, rfl⟩ := whenZero_eq_ok_iff.mp h
    exact append_eq_word (m := 6) (extractLsb'_eq_append_iff (m := 2) |>.mpr ⟨lead h2, beq_iff_eq.mp hzero⟩) rfl
  case h_3 => cases h

/-- Format Rw is format RR with op5w in the B field. -/
theorem formatRw_fields {w : Half} {op5w : BitVec 5} (hop : w.extractLsb' 10 6 = 0b011111#6)
    (h5 : w.extractLsb' 5 5 = op5w) : formatRw op5w (fieldA w) = w :=
  h5 ▸ formatRR_fields hop

theorem encode_of_decodeW {w : Half} {i : Instr} (hop : w.extractLsb' 10 6 = 0b011111#6) (h : decodeW w = .ok i) :
    encode i = w := by
  unfold decodeW at h
  split at h
  case h_13 h5 =>
    obtain ⟨hzero, rfl⟩ := whenZero_eq_ok_iff.mp h
    have hrestore := formatRw_fields hop h5
    rwa [beq_iff_eq.mp hzero] at hrestore
  case h_22 h5 =>
    obtain ⟨h4, rfl⟩ := whenZero_eq_ok_iff.mp h
    have hzero : w.extractLsb' 4 1 = 0#1 := extractLsb'_one_eq_zero h4
    have lead : w.extractLsb' 5 11 = 0b011111#6 ++ 0b10111#5 := extractLsb'_eq_append_iff.mpr ⟨hop, h5⟩
    exact append_eq_word (m := 4) (extractLsb'_eq_append_iff (m := 1) (lo := 0#1) |>.mpr ⟨lead, hzero⟩) rfl
  case h_28 => cases h
  all_goals
    cases h
    exact formatRw_fields hop ‹_›

theorem encode_of_decodeLow {w : Half} {i : Instr} (htop : w.extractLsb' 13 3 < 0b100#3) (h : decodeLow w = .ok i) :
    encode i = w := by
  have lead {op : BitVec 5} (hop : w.extractLsb' 10 5 = op) : w.extractLsb' 10 6 = op.setWidth 6 :=
    (bits_15_10_eq_iff w op).mpr ⟨htop, hop⟩
  unfold decodeLow at h
  split at h
  case h_25 hop =>
    cases h
    exact append_eq_word (m := 10) (lead hop) rfl
  case h_26 hop =>
    obtain ⟨h0, rfl⟩ := whenZero_eq_ok_iff.mp h
    have hzero : w.extractLsb' 0 1 = 0#1 := extractLsb'_one_eq_zero h0
    exact append_eq_word (m := 1) (extractLsb'_eq_append_iff (m := 9) |>.mpr ⟨lead hop, rfl⟩) hzero
  case h_30 hop => exact encode_of_decodeU (lead hop) h
  case h_31 hop => exact encode_of_decodeV (lead hop) h
  case h_32 =>
    have hop : w.extractLsb' 10 5 = 0b11111#5 := by
      generalize w.extractLsb' 10 5 = op at *
      simp only [imp_false] at *
      bv_omega
    exact encode_of_decodeW (lead hop) h
  all_goals
    cases h
    have hop6 := lead ‹_›
    exact formatRR_fields hop6

/-- Settles O2: table by table, the opcode bits that chose the row and the fields it kept make up the whole word. -/
theorem encodeOfDecodedWordIsIdentity : Obligations.EncodeOfDecodedWordIsIdentity := by
  intro w i h
  unfold decodeWord at h
  split at h
  case h_1 htop | h_2 htop =>
    cases h
    exact append_eq_word (m := 5) (extractLsb'_eq_append_iff (m := 8) |>.mpr ⟨htop, rfl⟩) rfl
  case h_3 htop =>
    have lead {b : Bool} (h12 : w[12] = b) : w.extractLsb' 12 4 = 0b101#3 ++ BitVec.ofBool b :=
      extractLsb'_eq_append_iff.mpr ⟨htop, h12 ▸ extractLsb'_one_eq_ofBool w (by decide)⟩
    have fields {op : BitVec 4} (hop : w.extractLsb' 12 4 = op) : op ++ fieldP w ++ fieldB w ++ fieldA w = w :=
      append_eq_word (m := 5) (extractLsb'_eq_append_iff (m := 5) |>.mpr
        ⟨extractLsb'_eq_append_iff (m := 2) |>.mpr ⟨hop, rfl⟩, rfl⟩) rfl
    split at h
    case isTrue h12 =>
      cases h
      exact fields (lead h12)
    case isFalse h12 =>
      cases h
      exact fields (lead (Bool.eq_false_of_not_eq_true h12))
  case h_4 htop =>
    have lead {op : BitVec 2} (h2 : w.extractLsb' 11 2 = op) : w.extractLsb' 11 5 = 0b100#3 ++ op :=
      extractLsb'_eq_append_iff.mpr ⟨htop, h2⟩
    split at h
    case h_3 => cases h
    case h_4 =>
      have h2 : w.extractLsb' 11 2 = 0b11#2 := by
        generalize w.extractLsb' 11 2 = op at *
        simp only [imp_false] at *
        bv_omega
      cases h
      exact append_eq_word (m := 11) (lead h2) rfl
    all_goals
      cases h
      have hop5 := lead ‹_›
      exact append_eq_word (m := 11) hop5 rfl
  case h_5 =>
    have htop : w.extractLsb' 13 3 < 0b100#3 := by
      generalize w.extractLsb' 13 3 = top at *
      simp only [imp_false] at *
      bv_omega
    exact encode_of_decodeLow htop h

end Sys2Proof
end

section
/-! The statements of 10_state.md, 45_system.md and 44_control_flow.md about who writes CWP, the system registers, the
pc and memory (R41, R50 to R60, R70): what every instruction of a kind keeps is said once per kind, and the writers are
read off what each of them can do. -/

namespace Sys2Proof

/-- May an instruction of this kind change a control register other than the flags? -/
def Effect.writesControl : Effect → Bool
  | .window | .control => true
  | _ => false

/-- Does an instruction of this kind always go on to `next`, with no delay slot after it (10_state.md R70, case (a))? -/
def Effect.sequential : Effect → Bool
  | .flags | .register | .memory => true
  | _ => false

/-- The nine stores are the instructions of their kind. -/
theorem Instr.effect_ne_memory {i : Instr} (hi : i.stores = false) : i.effect ≠ .memory := by
  cases i with
  | st | stp | sts | st8d | st8s | sts8s | st16d | st16s | sts16s => cases hi
  | _ => exact nofun

end Sys2Proof

namespace Sys2Proof.Machine

variable {s t : State} {i : Instr}

/-! ### What the kinds of instructions keep -/

/-- WRCTL writes at most STATUS, ISTATUS and WVALID, and ends sequentially (45_system.md R298). -/
theorem writtenState_eq (s : State) (v : Word) (c : ControlReg) :
    ∃ status istatus wvalid, writtenState s v c =
      State.advance { s with status := status, istatus := istatus, wvalid := wvalid } := by
  cases c with
  | wvalid =>
    rw [writtenState]
    split
    · exact ⟨s.status, s.istatus, _, rfl⟩
    · exact ⟨s.status, s.istatus, s.wvalid, rfl⟩
  | status => exact ⟨_, s.istatus, s.wvalid, rfl⟩
  | istatus => exact ⟨s.status, _, s.wvalid, rfl⟩
  | clrIe | setIe => exact ⟨_, s.istatus, s.wvalid, rfl⟩

/-- WRCTL and TRET write at most STATUS, ISTATUS, WVALID and the pc. -/
theorem exec_control_next (hi : i.effect = .control) (h : exec i s = .next t) :
    ∃ status istatus wvalid pc stored, t =
      { s.clearPrefix with status := status, istatus := istatus, wvalid := wvalid, pc := pc, ds := none,
                           stored := stored } := by
  cases i with
  | wrctl =>
    obtain ⟨v, c, _, _, rfl⟩ := execWrctl_next h
    obtain ⟨_, _, _, hw⟩ := writtenState_eq s v c
    exact ⟨_, _, _, _, _, hw⟩
  | tret =>
    obtain ⟨_, _, _, ht⟩ := execTret_next h
    exact ⟨_, s.istatus, s.wvalid, _, _, ht⟩
  | _ => cases hi

theorem exec_constant_next (hi : i.effect = .constant) (h : exec i s = .next t) :
    ∃ imm, t = { s.advance with k := imm, pfxf := true } := by
  cases i with
  | pfx imm => exact ⟨imm, (execPfx_next h).2.2⟩
  | _ => cases hi

/-- PFXF is 0 after every instruction but PFX (10_state.md R47). -/
theorem exec_pfxf_eq_false (hi : i.effect.setsK = false) (h : exec i s = .next t) : t.pfxf = false := by
  cases he : i.effect with
  | flags =>
    obtain ⟨_, _, _, rfl⟩ := exec_flags_next he h
    rfl
  | register =>
    obtain ⟨_, _, _, rfl⟩ := exec_register_next he h
    rfl
  | memory =>
    obtain ⟨_, _, rfl⟩ := exec_memory_next he h
    rfl
  | skip =>
    obtain ⟨_, ⟨_, rfl⟩ | ⟨_, rfl⟩⟩ := exec_skip_next he h <;> rfl
  | branch =>
    obtain ⟨_, _, _, rfl⟩ := exec_branch_next he h
    rfl
  | window =>
    obtain ⟨_, _, rfl | ⟨_, _, _, rfl⟩⟩ := exec_window_next he h <;> rfl
  | control =>
    obtain ⟨_, _, _, _, _, rfl⟩ := exec_control_next he h
    rfl
  | constant => simp [he, Effect.setsK] at hi
  | reserved => exact absurd h (exec_reserved_ne_next he)

/-- The control registers but for the flags change only by the window and control instructions (R53 to R60). -/
theorem exec_sameControl (hi : i.effect.writesControl = false) (h : exec i s = .next t) : SameControl s t := by
  cases he : i.effect with
  | flags =>
    obtain ⟨_, _, rfl | ⟨_, _, rfl⟩, rfl⟩ := exec_flags_next he h <;> exact ⟨rfl, rfl, rfl, rfl, rfl, rfl⟩
  | register =>
    obtain ⟨_, _, _, rfl⟩ := exec_register_next he h
    exact ⟨rfl, rfl, rfl, rfl, rfl, rfl⟩
  | memory =>
    obtain ⟨_, _, rfl⟩ := exec_memory_next he h
    exact ⟨rfl, rfl, rfl, rfl, rfl, rfl⟩
  | skip =>
    obtain ⟨_, ⟨_, rfl⟩ | ⟨_, rfl⟩⟩ := exec_skip_next he h <;> exact ⟨rfl, rfl, rfl, rfl, rfl, rfl⟩
  | branch =>
    obtain ⟨_, _, rfl | rfl, rfl⟩ := exec_branch_next he h <;> exact ⟨rfl, rfl, rfl, rfl, rfl, rfl⟩
  | constant =>
    obtain ⟨_, rfl⟩ := exec_constant_next he h
    exact ⟨rfl, rfl, rfl, rfl, rfl, rfl⟩
  | reserved => exact absurd h (exec_reserved_ne_next he)
  | window | control => simp [he, Effect.writesControl] at hi

/-- No instruction but a store writes memory (43_load_store.md R230; 60_exceptions.md R336). -/
theorem exec_mem_eq (hi : i.effect ≠ .memory) (h : exec i s = .next t) : t.mem = s.mem := by
  cases he : i.effect with
  | flags =>
    obtain ⟨_, _, rfl | ⟨_, _, rfl⟩, rfl⟩ := exec_flags_next he h <;> rfl
  | register =>
    obtain ⟨_, _, _, rfl⟩ := exec_register_next he h
    rfl
  | skip =>
    obtain ⟨_, ⟨_, rfl⟩ | ⟨_, rfl⟩⟩ := exec_skip_next he h <;> rfl
  | branch =>
    obtain ⟨_, _, rfl | rfl, rfl⟩ := exec_branch_next he h <;> rfl
  | window =>
    obtain ⟨_, ⟨_, _, rfl⟩, rfl | ⟨_, _, _, rfl⟩⟩ := exec_window_next he h <;> rfl
  | control =>
    obtain ⟨_, _, _, _, _, rfl⟩ := exec_control_next he h
    rfl
  | constant =>
    obtain ⟨_, rfl⟩ := exec_constant_next he h
    rfl
  | reserved => exact absurd h (exec_reserved_ne_next he)
  | memory => exact absurd he hi

/-- An instruction of a sequential kind goes on to `next` and leaves no delay slot (10_state.md R51, R70). -/
theorem exec_sequential (hi : i.effect.sequential = true) (h : exec i s = .next t) :
    t.ds = none ∧ t.pc = s.ds.getD (s.pc + 2#33) := by
  rw [← next_eq]
  cases he : i.effect with
  | flags =>
    obtain ⟨_, _, rfl | ⟨_, _, rfl⟩, rfl⟩ := exec_flags_next he h <;> exact ⟨rfl, rfl⟩
  | register =>
    obtain ⟨_, _, _, rfl⟩ := exec_register_next he h
    exact ⟨rfl, rfl⟩
  | memory =>
    obtain ⟨_, _, rfl⟩ := exec_memory_next he h
    exact ⟨rfl, rfl⟩
  | _ => simp [he, Effect.sequential] at hi

/-! ### The conditions of the window exceptions -/

/-- An internal exception is processed where IE = 1 and IPRI is above its number (60_exceptions.md R335). -/
theorem takesInternal_iff (s : State) (n : BitVec 6) :
    s.takesInternal n = true ↔ s.status.ie = true ∧ n.toNat < s.status.ipri.toNat := by
  simp [State.takesInternal]

/-- When SAVE takes the underflow exception (45_system.md R292). -/
theorem underflow_iff (s : State) : (s.status.cwp == s.wvalid.lo && s.takesInternal underflowNumber) = true ↔
    s.status.cwp = s.wvalid.lo ∧ s.status.ie = true ∧ 1 < s.status.ipri.toNat := by
  rw [Bool.and_eq_true, beq_iff_eq, takesInternal_iff]
  rfl

/-- When RESTORE takes the overflow exception (R293). -/
theorem overflow_iff (s : State) : (s.status.cwp == s.wvalid.hi && s.takesInternal overflowNumber) = true ↔
    s.status.cwp = s.wvalid.hi ∧ s.status.ie = true ∧ 2 < s.status.ipri.toNat := by
  rw [Bool.and_eq_true, beq_iff_eq, takesInternal_iff]
  rfl

/-- A SAVE opens the window and writes its %sp, and then takes the underflow exception or ends sequentially. -/
theorem execSave_cases {imm : BitVec 8} (h : execSave imm s = .next t) :
    ∃ v, (s.status.cwp = s.wvalid.lo ∧ s.status.ie = true ∧ 1 < s.status.ipri.toNat) ∧
          t = enteredState ((s.setCwp (s.status.cwp - 1#5)).putReg regSp v) underflowNumber s.next true ∨
        ¬(s.status.cwp = s.wvalid.lo ∧ s.status.ie = true ∧ 1 < s.status.ipri.toNat) ∧
          t = ((s.setCwp (s.status.cwp - 1#5)).putReg regSp v).advance := by
  obtain ⟨_, _, h⟩ := execSave_next h
  simp only [underflow_iff] at h
  split at h
  · exact ⟨_, .inl ⟨‹_›, h⟩⟩
  · exact ⟨_, .inr ⟨‹_›, h⟩⟩

/-- A RESTORE closes the window, and then takes the overflow exception or ends sequentially. -/
theorem execRestore_cases (h : execRestore s = .next t) :
    (s.status.cwp = s.wvalid.hi ∧ s.status.ie = true ∧ 2 < s.status.ipri.toNat) ∧
        t = enteredState (s.setCwp (s.status.cwp + 1#5)) overflowNumber s.next false ∨
      ¬(s.status.cwp = s.wvalid.hi ∧ s.status.ie = true ∧ 2 < s.status.ipri.toNat) ∧
        t = (s.setCwp (s.status.cwp + 1#5)).advance := by
  have h := execRestore_next h
  simp only [overflow_iff] at h
  split at h
  · exact .inl ⟨‹_›, h⟩
  · exact .inr ⟨‹_›, h⟩

/-! ### CWP (R41) -/

/-- WRCTL writes CWP where K selects STATUS, and only there (45_system.md R298). -/
theorem execWrctl_cwp {a : RegIdx} (h : execWrctl a s = .next t) :
    if s.k = 0#11 then ∃ v, s.reg? a = some v ∧ t.status.cwp = v.extractLsb' 4 5
    else t.status.cwp = s.status.cwp := by
  obtain ⟨v, c, hv, hc, rfl⟩ := execWrctl_next h
  obtain ⟨hk, rfl⟩ | ⟨hk, rfl⟩ | ⟨hk, rfl⟩ | ⟨hk, rfl⟩ | ⟨hk, rfl⟩ := controlReg_eq hc
  case inl =>
    obtain ⟨-, -, hcwp, -⟩ := (statusBits_iff (Status.ofWord (v.extractLsb' 0 16)) v).mpr rfl
    rw [if_pos hk]
    exact ⟨v, hv, hcwp⟩
  all_goals
    rw [if_neg (by simp [hk])]
  case inr.inr.inl =>
    rw [writtenState, advance_status]
    split <;> rfl
  all_goals rfl

/-- Settles O15: each of the five by the state it leaves, every other instruction because it keeps the control
registers, and an accepted interrupt by the exception sequence. -/
theorem windowPointerWriters : Obligations.WindowPointerWriters := by
  refine ⟨fun i s t h => ?instruction, fun s t hacc h => ?interrupt⟩
  case instruction =>
    cases i with
    | save => obtain ⟨_, ⟨_, rfl⟩ | ⟨_, rfl⟩⟩ := execSave_cases h <;> rfl
    | restore =>
      obtain ⟨htaken, rfl⟩ | ⟨htaken, rfl⟩ := execRestore_cases h
      · rw [if_pos htaken]
        exact BitVec.add_sub_cancel ..
      · rw [if_neg htaken]
        rfl
    | trap =>
      obtain ⟨_, rfl⟩ := execTrap_next h
      rfl
    | tret =>
      obtain ⟨_, _, _, rfl⟩ := execTret_next h
      rfl
    | wrctl => exact execWrctl_cwp h
    | _ =>
      obtain ⟨-, -, hcwp, -⟩ := exec_sameControl rfl h
      exact hcwp
  case interrupt =>
    obtain ⟨-, h⟩ | ⟨hnot, -⟩ := step_next h
    · rw [enterException_entered h]
      rfl
    · simp [hacc] at hnot

/-- Settles O18: a store is an instruction of the one kind that writes memory, and an exception entry writes none. -/
theorem memoryChangedOnlyByStores : Obligations.MemoryChangedOnlyByStores := by
  refine ⟨fun i s t hi h addr => ?instruction, fun s t hacc h addr => ?interrupt⟩
  case instruction => rw [exec_mem_eq (Instr.effect_ne_memory hi) h]
  case interrupt =>
    obtain ⟨-, h⟩ | ⟨hnot, -⟩ := step_next h
    · rw [enterException_entered h]
      rfl
    · simp [hacc] at hnot

/-! ### The other control registers (R53 to R60) -/

/-- Settles O19: the instructions that write control registers, each by the state it leaves; every other one keeps
them. -/
theorem systemRegisterWriters : Obligations.SystemRegisterWriters := by
  intro i s t h
  have stays {b : Bool} {p : Prop} (h0 : b = false) (h1 : b = true) : p := absurd (h0.symm.trans h1) nofun
  cases hi : i.effect.writesControl with
  | false =>
    obtain ⟨hie, hipri, -, histatus, hwvalid, hcfg⟩ := exec_sameControl hi h
    exact ⟨absurd hwvalid, absurd histatus, absurd hipri, fun h0 h1 => by simp [hie, h0] at h1, hcfg⟩
  | true =>
    cases i with
    | save imm =>
      obtain ⟨_, ⟨htaken, rfl⟩ | ⟨_, rfl⟩⟩ := execSave_cases h
      · have ⟨_, hie, _⟩ := htaken
        exact ⟨absurd rfl, fun _ => .inr (.inr (.inl ⟨⟨imm, rfl⟩, htaken⟩)),
          fun _ => .inr (.inr (.inr (.inl ⟨⟨imm, rfl⟩, hie⟩))), nofun, rfl⟩
      · exact ⟨absurd rfl, absurd rfl, absurd rfl, stays, rfl⟩
    | restore =>
      obtain ⟨htaken, rfl⟩ | ⟨_, rfl⟩ := execRestore_cases h
      · have ⟨_, hie, _⟩ := htaken
        exact ⟨absurd rfl, fun _ => .inr (.inr (.inr ⟨rfl, htaken⟩)),
          fun _ => .inr (.inr (.inr (.inr ⟨rfl, hie⟩))), nofun, rfl⟩
      · exact ⟨absurd rfl, absurd rfl, absurd rfl, stays, rfl⟩
    | trap n =>
      obtain ⟨_, rfl⟩ := execTrap_next h
      exact ⟨absurd rfl, fun _ => .inr (.inl ⟨n, rfl⟩), fun _ => .inr (.inr (.inl ⟨n, rfl⟩)), nofun, rfl⟩
    | tret a =>
      obtain ⟨_, _, _, rfl⟩ := execTret_next h
      exact ⟨absurd rfl, absurd rfl, fun _ => .inr (.inl ⟨a, rfl⟩), fun _ _ => .inr ⟨a, rfl⟩, rfl⟩
    | wrctl a =>
      obtain ⟨v, c, _, hc, rfl⟩ := execWrctl_next h
      have hwrctl : ∃ b, Instr.wrctl a = .wrctl b := ⟨a, rfl⟩
      obtain ⟨hk, rfl⟩ | ⟨hk, rfl⟩ | ⟨hk, rfl⟩ | ⟨hk, rfl⟩ | ⟨hk, rfl⟩ := controlReg_eq hc
      · exact ⟨absurd rfl, absurd rfl, fun _ => .inl ⟨hwrctl, hk⟩, fun _ _ => .inl ⟨hwrctl, .inl hk⟩, rfl⟩
      · exact ⟨absurd rfl, fun _ => .inl ⟨hwrctl, hk⟩, absurd rfl, stays, rfl⟩
      · rw [writtenState]
        split
        next hwritable =>
          exact ⟨fun _ => ⟨hwrctl, hk, hwritable⟩, absurd rfl, absurd rfl,
            stays, rfl⟩
        next => exact ⟨absurd rfl, absurd rfl, absurd rfl, stays, rfl⟩
      · exact ⟨absurd rfl, absurd rfl, absurd rfl, nofun, rfl⟩
      · exact ⟨absurd rfl, absurd rfl, absurd rfl, fun _ _ => .inl ⟨hwrctl, .inr hk⟩, rfl⟩
    | _ => cases hi

/-! ### The pc, DS and PFXF (R47 to R51, R70) -/

/-- Where a skip goes, in the words of R270. -/
theorem SkippedTo.skipGoes {test : Bool} {holds : Prop} (hds : s.ds = none) (htest : holds ↔ test = true)
    (h : SkippedTo s t test) : SkipGoes s t holds := by
  obtain ⟨hfalse, rfl⟩ | ⟨htrue, rfl⟩ := h
  · have hnot : ¬ holds := by simp [htest, hfalse]
    exact ⟨fun _ => next_of_ds_none hds, fun h => absurd h hnot, fun h => absurd h hnot⟩
  · refine ⟨fun h => absurd (htest.mpr htrue) h, fun _ hpfx => ?pfx, fun _ hpfx => ?single⟩
    case pfx => rw [if_pos ((nextIsPrefix_iff s).mp hpfx)]
    case single => rw [if_neg (mt (nextIsPrefix_iff s).mpr hpfx)]

theorem SkippedTo.ds_eq_none {test : Bool} (hds : s.ds = none) (h : SkippedTo s t test) : t.ds = none := by
  obtain ⟨_, rfl⟩ | ⟨_, rfl⟩ := h
  · rfl
  · exact hds

/-- A skip on a register, with its test as the statement words it. -/
theorem skipOnRegister_goes {a : RegIdx} {test : Word → Bool} {holds : Word → Prop}
    (htest : ∀ x, holds x ↔ test x = true)
    (h : s.ds = none ∧ ∃ x, s.reg? a = some x ∧ SkippedTo s t (test x)) :
    s.ds = none ∧ t.ds = none ∧ ∃ x, s.reg? a = some x ∧ SkipGoes s t (holds x) :=
  have ⟨hds, x, hx, hskip⟩ := h
  ⟨hds, hskip.ds_eq_none hds, x, hx, hskip.skipGoes hds (htest x)⟩

/-- An exception entry goes to its vector (60_exceptions.md R322, R336). -/
theorem enteredState_goesToVector (s : State) (n : BitVec 6) (ret : Addr) (underflow : Bool) :
    GoesToVector s (enteredState s n ret underflow) n := by
  intro hwf
  refine ⟨Memory.readWord s.mem (vectorAddr s.cfg n), ?_, codeAddr_toNat _⟩
  have hentry : vectorAddr s.cfg n = vectorEntry s n := vectorAddr_eq hwf n
  exact hentry ▸ .of_readWord _ _

/-- Settles O17: each instruction that chooses where to go by the state it leaves, every other one because it is of a
sequential kind. -/
theorem programCounterAfterEveryInstruction : Obligations.ProgramCounterAfterEveryInstruction := by
  intro i s t h
  constructor
  case left =>
    cases i with
    | br imm =>
      obtain ⟨hds, rfl⟩ := execBr_next h
      exact ⟨hds, rfl, congrArg some (branchTarget_eq s.pc imm)⟩
    | bsr imm =>
      obtain ⟨hds, _, rfl⟩ := execBsr_next h
      exact ⟨hds, rfl, congrArg some (branchTarget_eq s.pc imm)⟩
    | jmp =>
      obtain ⟨hds, x, hx, rfl⟩ := execJmp_next h
      exact ⟨hds, rfl, x, _, hx, rfl, codeAddr_toNat x⟩
    | call =>
      obtain ⟨hds, x, hx, _, rfl⟩ := execCall_next h
      exact ⟨hds, rfl, x, _, hx, rfl, codeAddr_toNat x⟩
    | skp0 => exact skipOnRegister_goes (fun x => by simp [bitOf]) (execSkp0_next h)
    | skp1 => exact skipOnRegister_goes (fun x => Iff.rfl) (execSkp1_next h)
    | skprz => exact skipOnRegister_goes (fun x => by rw [beq_zero_eq_decide, decide_eq_true_iff]) (execSkprz_next h)
    | skprnz =>
      refine skipOnRegister_goes (fun x => ?_) (execSkprnz_next h)
      rw [bne, beq_zero_eq_decide, Bool.not_eq_true', decide_eq_false_iff_not]
    | skps =>
      obtain ⟨hds, test, htest, hskip⟩ := execSkps_next h
      exact ⟨hds, hskip.ds_eq_none hds, test, htest, hskip.skipGoes hds Iff.rfl⟩
    | tret =>
      obtain ⟨hds, x, hx, rfl⟩ := execTret_next h
      exact ⟨hds, rfl, x, hx, codeAddr_toNat x⟩
    | trap n =>
      obtain ⟨hds, rfl⟩ := execTrap_next h
      exact ⟨hds, rfl, enteredState_goesToVector s n _ false⟩
    | save =>
      obtain ⟨v, ⟨htaken, rfl⟩ | ⟨htaken, rfl⟩⟩ := execSave_cases h
      · rw [if_pos htaken]
        exact ⟨rfl, enteredState_goesToVector ((s.setCwp _).putReg regSp v) underflowNumber s.next true⟩
      · rw [if_neg htaken]
        exact ⟨rfl, next_eq s⟩
    | restore =>
      obtain ⟨htaken, rfl⟩ | ⟨htaken, rfl⟩ := execRestore_cases h
      · rw [if_pos htaken]
        exact ⟨rfl, enteredState_goesToVector (s.setCwp _) overflowNumber s.next false⟩
      · rw [if_neg htaken]
        exact ⟨rfl, next_eq s⟩
    | pfx =>
      obtain ⟨_, _, rfl⟩ := execPfx_next h
      exact ⟨rfl, next_eq s⟩
    | wrctl =>
      obtain ⟨v, c, _, _, rfl⟩ := execWrctl_next h
      obtain ⟨_, _, _, hw⟩ := writtenState_eq s v c
      rw [hw]
      exact ⟨rfl, next_eq s⟩
    | usr0 | usr1 | usr2 | usr3 | usr4 => exact absurd h (exec_reserved_ne_next rfl)
    | _ => exact exec_sequential rfl h
  case right =>
    cases i with
    | pfx =>
      obtain ⟨_, _, rfl⟩ := execPfx_next h
      rfl
    | _ => exact exec_pfxf_eq_false rfl h

end Sys2Proof.Machine
end

section
/-! The statements about the reset state and the invariant (10_state.md R76; 70_reset_and_hazards.md R371; 10_state.md
R30, R31, R45 to R50): reset meets the invariant, and what each step does to the pc, DS, K and PFXF, to the sizes and to
memory keeps it. -/

namespace Sys2Proof.Machine

variable {s t : State} {i : Instr}

/-! ### Reset -/

/-- HI_MAX fits the five bits of CWP (R38). -/
theorem hiMax_toNat (f : FileSize) : f.hiMax.toNat = f.nreg / 16 - 2 := by
  cases f <;> rfl

/-- STATUS after reset as one word: 0x7E00 is IE = 0 and IPRI = 63. -/
theorem resetStatus_toWord (file : FileSize) (f : Flags) : (resetStatus file f).toWord =
    0x7E00#16 ||| (BitVec.ofNat 16 (file.nreg / 16 - 2) <<< 4) |||
      (BitVec.ofBool f.n ++ BitVec.ofBool f.v ++ BitVec.ofBool f.z ++ BitVec.ofBool f.c).setWidth 16 := by
  obtain ⟨n, v, z, c⟩ := f
  revert n v z c
  cases file <;> decide

/-- WVALID after reset as one number (R60, R76). -/
theorem resetWvalid_toNat (file : FileSize) :
    (Wvalid.toBits { hi := file.hiMax, lo := 1#5 }).toNat = 32 * (file.nreg / 16 - 2) + 1 := by
  cases file <;> rfl

theorem resetWith_resetState {c : Config} (hc : c.wf = true) {regs : List Word} (hregs : regs.length = c.fileSize.nreg)
    (f : Flags) : ResetState (State.resetWith c regs f) where
  interruptsOff := rfl
  lowestPriority := rfl
  highestWindow := hiMax_toNat c.fileSize
  savedStatusZero := by
    change Status.toWord ⟨false, 0#6, 0#5, ⟨false, false, false, false⟩⟩ = 0#16
    decide
  highLimit := hiMax_toNat c.fileSize
  lowLimit := rfl
  pcAtReset := rfl
  prefixZero := rfl
  notPrefixed := rfl
  noSlot := rfl
  registerFile := hregs
  parameters := hc
  memoryCanonical := rfl
  nothingStored := rfl

theorem reset_resetState : ResetState State.reset :=
  resetWith_resetState (c := resetConfig) rfl (List.length_replicate ..) _

/-- Settles O11: field by field as the model sets them, and STATUS and WVALID as one number for every size of the
file. -/
theorem resetLeavesStatedValues : Obligations.ResetLeavesStatedValues :=
  ⟨fun c _ f hc hregs => ⟨_, rfl, resetWith_resetState hc hregs f, rfl, rfl, rfl, resetStatus_toWord c.fileSize f,
    resetWvalid_toNat c.fileSize⟩, reset_resetState⟩

/-- RESET_PC is even (decision D1). -/
theorem resetPc_even {c : Config} (hc : c.wf = true) : c.resetPc.toNat % 2 = 0 := by
  simp only [Config.wf, Bool.and_eq_true, beq_iff_eq] at hc
  exact hc.2

theorem ResetState.invariant (hs : ResetState s) : Invariant s where
  pcEven := hs.pcAtReset ▸ resetPc_even hs.parameters
  slotEven := by simp [hs.noSlot]
  prefixFlagged _ := hs.prefixZero
  prefixedNotInSlot _ := hs.noSlot
  registerFile := hs.registerFile
  parameters := hs.parameters
  memoryCanonical := hs.memoryCanonical

/-- Settles O12: RESET_PC is even by its constraint, and each other clause is a clause of the reset state. -/
theorem resetMeetsInvariant : Obligations.ResetMeetsInvariant :=
  ⟨fun _ => ResetState.invariant, reset_resetState.invariant⟩

/-! ### The sizes and memory -/

/-- The parameters and the number of registers are as before. -/
def SameSizes (s t : State) : Prop := t.cfg = s.cfg ∧ t.regs.length = s.regs.length

theorem SameSizes.of_putReg (s : State) (j : RegIdx) (v : Word) : SameSizes s (s.putReg j v) :=
  ⟨rfl, List.length_set ..⟩

theorem SameSizes.of_enteredState (s : State) (n : BitVec 6) (ret : Addr) (underflow : Bool) :
    SameSizes s (enteredState s n ret underflow) :=
  .of_putReg (s.exceptionStatus n underflow) regO7 _

theorem SameSizes.of_setCwp (s : State) (cwp : BitVec 5) : SameSizes s (s.setCwp cwp) := ⟨rfl, rfl⟩

theorem SameSizes.of_advance (s : State) : SameSizes s s.advance := ⟨rfl, rfl⟩

theorem SameSizes.trans {u : State} (hsu : SameSizes s u) (hut : SameSizes u t) : SameSizes s t :=
  ⟨hut.1.trans hsu.1, hut.2.trans hsu.2⟩

/-- No instruction changes the parameters or the number of registers (10_state.md R31). -/
theorem exec_sameSizes (h : exec i s = .next t) : SameSizes s t := by
  cases he : i.effect with
  | flags =>
    obtain ⟨_, _, rfl | ⟨j, v, rfl⟩, rfl⟩ := exec_flags_next he h
    · exact ⟨rfl, rfl⟩
    · exact .of_putReg s j v
  | register =>
    obtain ⟨_, j, v, rfl⟩ := exec_register_next he h
    exact .of_putReg s j v
  | memory =>
    obtain ⟨_, _, rfl⟩ := exec_memory_next he h
    exact ⟨rfl, rfl⟩
  | skip =>
    obtain ⟨_, ⟨_, rfl⟩ | ⟨_, rfl⟩⟩ := exec_skip_next he h <;> exact ⟨rfl, rfl⟩
  | branch =>
    obtain ⟨_, _, rfl | rfl, rfl⟩ := exec_branch_next he h
    · exact ⟨rfl, rfl⟩
    · exact .of_putReg s regO7 _
  | window =>
    cases i with
    | save =>
      obtain ⟨v, ⟨_, rfl⟩ | ⟨_, rfl⟩⟩ := execSave_cases h
      all_goals
        have hopened := (SameSizes.of_setCwp s (s.status.cwp - 1#5)).trans (.of_putReg _ regSp v)
      · exact hopened.trans (.of_enteredState ..)
      · exact hopened.trans (.of_advance _)
    | restore =>
      obtain ⟨_, rfl⟩ | ⟨_, rfl⟩ := execRestore_cases h
      · exact (SameSizes.of_setCwp s _).trans (.of_enteredState ..)
      · exact (SameSizes.of_setCwp s _).trans (.of_advance _)
    | trap =>
      obtain ⟨_, rfl⟩ := execTrap_next h
      exact .of_enteredState ..
    | _ => cases he
  | control =>
    obtain ⟨_, _, _, _, _, rfl⟩ := exec_control_next he h
    exact ⟨rfl, rfl⟩
  | constant =>
    obtain ⟨_, rfl⟩ := exec_constant_next he h
    exact ⟨rfl, rfl⟩
  | reserved => exact absurd h (exec_reserved_ne_next he)

/-- Every instruction keeps the canonical form of memory: only a store writes it, and by `Memory.writeBytes`. -/
theorem exec_memoryCanonical (hs : Memory.wf s.mem = true) (h : exec i s = .next t) : Memory.wf t.mem = true := by
  by_cases he : i.effect = .memory
  · obtain ⟨addr, vs, rfl⟩ := exec_memory_next he h
    exact wf_writeBytes s.mem addr vs hs
  · rwa [exec_mem_eq he h]

/-! ### Even addresses (R48, R50) -/

/-- The address of an instruction. -/
def EvenAddr (p : Addr) : Prop := p.toNat % 2 = 0

theorem EvenAddr.add {p q : Addr} (hp : EvenAddr p) (hq : EvenAddr q) : EvenAddr (p + q) := by
  unfold EvenAddr at *
  rw [BitVec.toNat_add]
  omega

/-- Twice anything is even, modulo 2^33 too. -/
theorem EvenAddr.two_mul (p : Addr) : EvenAddr (2#33 * p) := by
  rw [EvenAddr, BitVec.toNat_mul, BitVec.toNat_ofNat]
  omega

theorem EvenAddr.of_toNat {p : Addr} {n : Nat} (h : p.toNat = 2 * n) : EvenAddr p := by
  rw [EvenAddr, h]
  omega

/-- The next instruction, in a delay slot or not. -/
theorem Invariant.next_even (hs : Invariant s) : EvenAddr (s.ds.getD (s.pc + 2#33)) := by
  cases hds : s.ds with
  | none => exact .add hs.pcEven rfl
  | some target => exact hs.slotEven target hds

theorem SkipGoes.even {test : Prop} (hs : Invariant s) (h : SkipGoes s t test) : EvenAddr t.pc := by
  obtain ⟨hfails, hpair, hsingle⟩ := h
  by_cases htest : test
  · by_cases hpfx : NextIsPrefix s
    · exact hpair htest hpfx ▸ .add hs.pcEven rfl
    · exact hsingle htest hpfx ▸ .add hs.pcEven rfl
  · exact hfails htest ▸ .add hs.pcEven rfl

theorem GoesToVector.even {n : BitVec 6} (hs : Invariant s) (h : GoesToVector s t n) : EvenAddr t.pc :=
  have ⟨_, _, hpc⟩ := h hs.parameters
  .of_toNat hpc

/-- The pc and a pending branch target stay even: every way on that O17 lists is a sum of even numbers, or twice a
word. -/
theorem exec_even (hs : Invariant s) (h : exec i s = .next t) :
    EvenAddr t.pc ∧ ∀ target, t.ds = some target → EvenAddr target := by
  have hnext := hs.next_even
  have hpc2 : EvenAddr (s.pc + 2#33) := .add hs.pcEven rfl
  have noSlot {p : Prop} (hds : t.ds = none) {target : Addr} (htarget : t.ds = some target) : p := by
    simp [hds] at htarget
  obtain ⟨hgoes, -⟩ := programCounterAfterEveryInstruction i s t h
  cases i with
  | br imm | bsr imm =>
    obtain ⟨-, hpc, hds⟩ := hgoes
    refine ⟨hpc ▸ hpc2, fun target htarget => ?_⟩
    obtain rfl := Option.some.inj (hds.symm.trans htarget)
    exact .add hpc2 (.two_mul _)
  | jmp | call =>
    obtain ⟨-, hpc, _, _, -, hds, hd⟩ := hgoes
    refine ⟨hpc ▸ hpc2, fun target htarget => ?_⟩
    obtain rfl := Option.some.inj (hds.symm.trans htarget)
    exact .of_toNat hd
  | skp0 | skp1 | skprz | skprnz | skps =>
    obtain ⟨-, hds, _, -, hskip⟩ := hgoes
    exact ⟨hskip.even hs, fun _ => noSlot hds⟩
  | tret =>
    obtain ⟨-, hds, _, -, hpc⟩ := hgoes
    exact ⟨.of_toNat hpc, fun _ => noSlot hds⟩
  | trap =>
    obtain ⟨-, hds, hvector⟩ := hgoes
    exact ⟨hvector.even hs, fun _ => noSlot hds⟩
  | save | restore =>
    obtain ⟨hds, hpc⟩ := hgoes
    refine ⟨?_, fun _ => noSlot hds⟩
    split at hpc
    · exact hpc.even hs
    · exact hpc ▸ hnext
  | _ =>
    obtain ⟨hds, hpc⟩ := hgoes
    exact ⟨hpc ▸ hnext, fun _ => noSlot hds⟩

/-! ### Every step -/

/-- K is not 0 only right after a PFX, which leaves no delay slot (R45, R47). -/
theorem exec_prefix (h : exec i s = .next t) : (t.pfxf = false → t.k = 0#11) ∧ (t.pfxf = true → t.ds = none) := by
  cases hk : i.effect.setsK with
  | false =>
    have hpfxf := exec_pfxf_eq_false hk h
    exact ⟨fun _ => exec_k_eq_zero hk h, fun hp => by simp [hpfxf] at hp⟩
  | true =>
    cases i with
    | pfx =>
      obtain ⟨_, _, rfl⟩ := execPfx_next h
      exact ⟨nofun, fun _ => rfl⟩
    | _ => cases hk

theorem Invariant.of_exec (hs : Invariant s) (h : exec i s = .next t) : Invariant t := by
  obtain ⟨hpc, hslot⟩ := exec_even hs h
  obtain ⟨hk, hds⟩ := exec_prefix h
  obtain ⟨hcfg, hregs⟩ := exec_sameSizes h
  exact ⟨hpc, hslot, hk, hds, by rw [hregs, hcfg, hs.registerFile], hcfg ▸ hs.parameters,
    exec_memoryCanonical hs.memoryCanonical h⟩

/-- Sampling the interrupt inputs touches nothing the invariant is about. -/
theorem Invariant.tick (hs : Invariant s) : Invariant s.tick :=
  ⟨hs.pcEven, hs.slotEven, hs.prefixFlagged, hs.prefixedNotInSlot, hs.registerFile, hs.parameters, hs.memoryCanonical⟩

theorem Invariant.enteredState (hs : Invariant s) (n : BitVec 6) (ret : Addr) (underflow : Bool) :
    Invariant (enteredState s n ret underflow) := by
  obtain ⟨hcfg, hregs⟩ := SameSizes.of_enteredState s n ret underflow
  exact ⟨(enteredState_goesToVector s n ret underflow).even hs, nofun, fun _ => rfl, nofun,
    by rw [hregs, hcfg, hs.registerFile], hs.parameters, hs.memoryCanonical⟩

/-- Settles O13: a step is an accepted interrupt, which enters an exception, or one instruction. -/
theorem invariantKeptByEveryStep : Obligations.InvariantKeptByEveryStep := by
  intro s t hs h
  obtain ⟨-, h⟩ | ⟨-, i, -, h⟩ := step_next h
  · exact enterException_entered h ▸ hs.tick.enteredState ..
  · exact hs.tick.of_exec h

end Sys2Proof.Machine
end

section
/-! The statements about the step (10_state.md R70; 60_exceptions.md R333; 20_memory.md R86, R93, R98): which interrupt
it takes, which it ignores, and what the fetch runs or stops. -/

namespace Sys2Proof.Machine

variable {s : State}

/-! ### Which interrupts are accepted (R333) -/

theorem irqNow_cons {now : IrqInput} {later : List IrqInput} (h : s.irqs = now :: later) : s.irqNow = now := by
  rw [State.irqNow, h]
  rfl

theorem acceptsIrq_iff (s : State) : s.acceptsIrq = true ↔
    s.irqNow.irq = true ∧ s.status.ie = true ∧ s.irqNow.number.toNat < s.status.ipri.toNat ∧ s.pfxf = false ∧
      s.ds = none := by
  simp [State.acceptsIrq, and_assoc]

/-- The step of a state that accepts its interrupt. -/
theorem step_of_acceptsIrq (h : s.acceptsIrq = true) : step s = enterException s.tick s.irqNow.number s.pc false := by
  rw [step, if_pos h, State.takeIrq]

/-- The step of any other state. -/
theorem step_of_not_acceptsIrq (h : s.acceptsIrq = false) :
    step s = fetchHalf s.tick s.pc.toNat fun w => decodeOr w fun i => exec i s.tick := by
  rw [step, h, if_neg Bool.false_ne_true, fetchDecode, tick_pc]

/-- An accepted interrupt whose handler has a window and a vector enters its exception, before the instruction at pc. -/
theorem step_eq_enteredState {n : BitVec 6} (hacc : s.acceptsIrq = true) (hn : s.irqNow.number = n)
    (hw : HandlerWindow s s.status.cwp) (hv : VectorBacked s n) :
    step s = .next (enteredState s.tick n s.pc false) := by
  rw [step_of_acceptsIrq hacc, hn]
  exact enterException_eq_enteredState (s := s.tick) hw hv s.pc

/-- Settles O8: the step is the exception sequence of R336 in the state that has sampled its inputs. -/
theorem stepTakesAcceptedInterrupt : Obligations.StepTakesAcceptedInterrupt := by
  intro s n later hirqs hie hipri hpfxf hds hw hv
  have hnow := irqNow_cons hirqs
  have hacc : s.acceptsIrq = true :=
    (acceptsIrq_iff s).mpr ⟨by rw [hnow], hie, by rwa [hnow], hpfxf, hds⟩
  have hentered : ExceptionEntered s.tick (enteredState s.tick n s.pc false) s.status (s.status.cwp - 1#5) n s.pc :=
    enteredState_exceptionEntered (s := s.tick) (underflow := false) hw.1 hv s.pc
  exact ⟨_, step_eq_enteredState hacc (by rw [hnow]) hw hv, hentered, enteredState_sameRegistersBut s.tick n s.pc false,
    congrArg List.tail hirqs⟩

/-- Settles O9: with the request masked, as with none, the step goes on to the fetch, in the same state. -/
theorem maskedInterruptHasNoEffect : Obligations.MaskedInterruptHasNoEffect := by
  intro s n later hirqs hmasked
  have hnow := irqNow_cons hirqs
  have hignored : s.acceptsIrq = false := by
    refine Bool.eq_false_iff.mpr fun hacc => ?_
    obtain ⟨-, hie, hipri, hpfxf, hds⟩ := (acceptsIrq_iff s).mp hacc
    rw [hnow] at hipri
    obtain h | h | h | h := hmasked
    · simp [h] at hie
    · exact absurd hipri (Nat.not_lt.mpr h)
    · simp [h] at hpfxf
    · exact h hds
  have hidle : State.acceptsIrq { s with irqs := { irq := false, number := n } :: later } = false := rfl
  have hsame : s.tick = State.tick { s with irqs := { irq := false, number := n } :: later } := by
    rw [State.tick, hirqs]
    rfl
  rw [step_of_not_acceptsIrq hignored, step_of_not_acceptsIrq hidle, hsame]

/-! ### What the fetch reads (R86, R93, R98) -/

theorem loadHalf_refused {addr : Nat} (h : bytesBacked s.cfg addr 2 = false) (rest : Half → Out) :
    loadHalf s addr rest = .refused (.unbackedAddress addr) := by
  rw [loadHalf, h, if_neg Bool.false_ne_true]

theorem fetchHalf_stale {addr : Nat} (hb : bytesBacked s.cfg addr 2 = true) (hs : s.stale addr = true)
    (rest : Half → Out) : fetchHalf s addr rest = .refused (.staleFetch addr) := by
  rw [fetchHalf, loadHalf_eq hb, if_pos hs]

/-- A word that can be fetched is decoded, and its instruction runs (10_state.md R70 steps 2 to 4). -/
theorem step_fetched {w : Half} (hacc : s.acceptsIrq = false) (hb : bytesBacked s.cfg s.pc.toNat 2 = true)
    (hs : s.stale s.pc.toNat = false) (hw : HalfAt s.mem s.pc.toNat w) :
    step s = decodeOr w fun i => exec i s.tick := by
  rw [step_of_not_acceptsIrq hacc, fetchHalf_eq (s := s.tick) hb hs, tick_mem, (halfAt_iff_readHalf ..).mp hw]

/-- Settles O7: the word read is the one whose bytes stand at pc. -/
theorem stepRunsTheDecodedInstruction : Obligations.StepRunsTheDecodedInstruction := by
  intro s w i hacc hb hs hw hdecode
  rw [step_fetched hacc hb hs hw, decodeOr, hdecode]
  rfl

/-- Settles O10: the fetch is tested before the word is read, and the word before it is run. -/
theorem stepStopsWhatItCannotFetch : Obligations.StepStopsWhatItCannotFetch := by
  intro s hacc
  refine ⟨fun hb => ?unbacked, fun hb hs => ?stale,
    fun hb hs w hw => ⟨fun hdecode => ?unassigned, fun hdecode => ?fixed⟩⟩
  case unbacked =>
    rw [step_of_not_acceptsIrq hacc]
    exact loadHalf_refused (s := s.tick) hb _
  case stale =>
    rw [step_of_not_acceptsIrq hacc]
    exact fetchHalf_stale (s := s.tick) hb hs _
  case unassigned | fixed => rw [step_fetched hacc hb hs hw, decodeOr, hdecode]

end Sys2Proof.Machine
end

section
/-! The statements of 40_arithmetic.md about NEG, ABS and MSTEP (R157, R160, R161, R163), of 42_move_extract.md about
the extracts (R207 to R210), and of 44_control_flow.md about the conditions after a comparison (R275). -/

namespace Sys2Proof.Machine

variable {s : State} {a : RegIdx} {x y : Word}

/-! ### NEG and ABS -/

theorem negate_toNat (x : Word) : (0#32 - x).toNat = (2 ^ 32 - x.toNat) % 2 ^ 32 := by
  rw [BitVec.zero_sub, BitVec.toNat_neg]

/-- The absolute value of 0x80000000 is 2^31, which is that word again (R157, log entry 41). -/
theorem absolute_toNat (x : Word) : (if x.msb then 0#32 - x else x).toNat = x.toInt.natAbs := by
  have hx := x.isLt
  rw [BitVec.msb_eq_decide, BitVec.toInt_eq_toNat_cond]
  by_cases h : 2 ^ 31 ≤ x.toNat
  · rw [if_pos (by simpa using h), negate_toNat]
    omega
  · rw [if_neg (by simpa using h)]
    omega

/-- Settles O27: two instructions that map one register, each with its map as an exact number. -/
theorem negateAndAbsolute : Obligations.NegateAndAbsolute := by
  intro s a x hx
  have ha := reg?_isSome hx
  exact ⟨⟨_, _, unary_eq hx _, negate_toNat x, .of_advance ha _⟩,
    ⟨_, _, unary_eq hx _, absolute_toNat x, .of_advance ha _⟩⟩

/-! ### MSTEP -/

theorem multiplyStep_toNat (x y : Word) :
    (multiplyStep x y).toNat = (2 * x.toNat + (if 2 ^ 31 ≤ x.toNat then y.toNat else 0)) % 2 ^ 32 := by
  rw [multiplyStep, BitVec.msb_eq_decide]
  by_cases h : 2 ^ 31 ≤ x.toNat
  · rw [if_pos (by simpa using h), if_pos h, BitVec.toNat_add, BitVec.toNat_shiftLeft, Nat.shiftLeft_eq]
    omega
  · rw [if_neg (by simpa using h), if_neg h, BitVec.toNat_shiftLeft, Nat.shiftLeft_eq]
    omega

theorem execMstep_eq (hx : s.reg? regR0 = some x) (hy : s.reg? a = some y) :
    execMstep a s = .next (s.putReg regR0 (multiplyStep x y)).advance := by
  rw [execMstep, readReg_eq hx, readReg_eq hy, writeReg_eq (reg?_isSome hx), finish]

/-- Settles O29: both reads come before the write of %r0, so A = 0 is no special case. -/
theorem multiplyStepAccumulates : Obligations.MultiplyStepAccumulates := by
  intro s a x y hx hy
  exact ⟨_, _, execMstep_eq hx hy, multiplyStep_toNat x y, .of_advance (reg?_isSome hx) _⟩

/-- One step on an accumulator split at bit 31: the top bit leaves, and says whether to add the multiplicand (R161). -/
theorem multiplyStep_split {top r n : Nat} (htop : top < 2) (hr : r < 2 ^ 31) (hn : n < 2 ^ 32) :
    multiplyStep (BitVec.ofNat 32 (top * 2 ^ 31 + r)) (BitVec.ofNat 32 n) = BitVec.ofNat 32 (2 * r + top * n) := by
  have hfits : top * 2 ^ 31 + r < 2 ^ 32 := by omega
  apply BitVec.eq_of_toNat_eq
  rw [multiplyStep_toNat, BitVec.toNat_ofNat, BitVec.toNat_ofNat, BitVec.toNat_ofNat, Nat.mod_eq_of_lt hn,
    Nat.mod_eq_of_lt hfits]
  obtain rfl | rfl : top = 0 ∨ top = 1 := by omega
  · rw [if_neg (by omega)]
    omega
  · rw [if_pos (by omega)]
    omega

/-- The accumulator holds the bits of the multiplier still to come, `q`, above a partial product `p` with room to grow:
`j` steps leave the sum of both (R163). -/
theorem multiplySteps_toNat {n : Nat} (j e q p : Nat) (he : e + j = 32) (hq : q < 2 ^ j) (hp : p + n < 2 ^ e) :
    ((fun r0 => multiplyStep r0 (BitVec.ofNat 32 n))^[j] (BitVec.ofNat 32 (q * 2 ^ e + p))).toNat =
      p * 2 ^ j + q * n := by
  induction j generalizing e q p with
  | zero =>
    obtain rfl : e = 32 := he
    obtain rfl : q = 0 := by omega
    simp only [Function.iterate_zero, id, BitVec.toNat_ofNat]
    omega
  | succ j ih =>
    obtain ⟨top, q, htop, hlow, rfl⟩ : ∃ top r, top < 2 ∧ r < 2 ^ j ∧ q = top * 2 ^ j + r :=
      ⟨q / 2 ^ j, q % 2 ^ j, Nat.div_lt_of_lt_mul hq, Nat.mod_lt _ (by positivity), (Nat.div_add_mod' ..).symm⟩
    have hpow : 2 ^ j * 2 ^ e = 2 ^ 31 := by
      rw [← pow_add]
      congr
      omega
    have hn : n < 2 ^ 32 := by
      have := Nat.pow_le_pow_right (n := 2) (by decide) (by omega : e ≤ 32)
      omega
    have hr : q * 2 ^ e + p < 2 ^ 31 := by
      have := Nat.mul_le_mul_right (2 ^ e) (Nat.succ_le_of_lt hlow)
      rw [Nat.succ_mul, hpow] at this
      omega
    have hgrows : 2 * p + top * n + n < 2 ^ (e + 1) := by
      have := Nat.mul_le_mul_right n (Nat.le_of_lt_succ htop)
      omega
    have hsplit : (top * 2 ^ j + q) * 2 ^ e + p = top * 2 ^ 31 + (q * 2 ^ e + p) := by
      rw [← hpow]
      ring
    have hstep : 2 * (q * 2 ^ e + p) + top * n = q * 2 ^ (e + 1) + (2 * p + top * n) := by ring
    rw [Function.iterate_succ_apply, hsplit, multiplyStep_split htop hr hn, hstep, ih _ _ _ (by omega) hlow hgrows]
    ring

/-- Settles O30: sixteen steps from the multiplier in the high half-word and no partial product. -/
theorem sixteenMultiplyStepsMultiply : Obligations.SixteenMultiplyStepsMultiply := by
  intro m n hm hn
  have hsteps := multiplySteps_toNat (n := n) 16 16 m 0 rfl hm (by omega)
  rwa [Nat.zero_mul, Nat.zero_add, Nat.add_zero] at hsteps

/-! ### The extracts -/

/-- Byte n, zero-extended, as a number (R207). -/
theorem extractByte_toNat (x : Word) (n : BitVec 2) :
    (extractByte x n).toNat = x.toNat / 2 ^ (8 * n.toNat) % 2 ^ 8 := by
  rw [extractByte, BitVec.toNat_setWidth, byteOf, BitVec.extractLsb'_toNat, Nat.shiftRight_eq_div_pow]
  omega

/-- Half-word n, zero-extended, as a number (R209). -/
theorem extractHalf_toNat (x : Word) (n : BitVec 1) :
    (extractHalf x n).toNat = x.toNat / 2 ^ (16 * n.toNat) % 2 ^ 16 := by
  rw [extractHalf, BitVec.toNat_setWidth, halfOf, BitVec.extractLsb'_toNat, Nat.shiftRight_eq_div_pow]
  omega

theorem byteLane_toNat (y : Word) : (byteLane y).toNat = y.toNat % 4 :=
  BitVec.extractLsb'_toNat ..

theorem halfLane_toNat (y : Word) : (halfLane y).toNat = y.toNat / 2 % 2 := by
  rw [halfLane, BitVec.extractLsb'_toNat, Nat.shiftRight_eq_div_pow]

/-- Settles O37: both forms of an extract are one operation, by the lane in RB or in the immediate. -/
theorem extractsByteOrHalfWord : Obligations.ExtractsByteOrHalfWord := by
  intro s a x hx
  have ha := reg?_isSome hx
  refine ⟨fun b y hy => ⟨?ext8d, decodeWord_encode (.ext16d a b), ?ext16d⟩,
    fun imm => ⟨decodeWord_encode (.ext8s a imm), ?ext8s⟩, fun imm => ⟨decodeWord_encode (.ext16s a imm), ?ext16s⟩⟩
  case ext8d =>
    rw [← byteLane_toNat]
    exact ⟨_, _, binary_eq hx hy _, extractByte_toNat x _, .of_advance ha _⟩
  case ext16d =>
    rw [← halfLane_toNat]
    exact ⟨_, _, binary_eq hx hy _, extractHalf_toNat x _, .of_advance ha _⟩
  case ext8s => exact ⟨_, _, unary_eq hx _, extractByte_toNat x imm, .of_advance ha _⟩
  case ext16s => exact ⟨_, _, unary_eq hx _, extractHalf_toNat x imm, .of_advance ha _⟩

/-! ### The conditions after a comparison (R275) -/

/-- Z: the operands are equal. -/
theorem subFlags_z (x y : Word) : (subFlags x y).z = decide (x = y) := by
  have hzero : x - y = 0#32 ↔ x = y := by bv_omega
  rw [Bool.eq_iff_iff, decide_eq_true_iff, ← hzero]
  exact beq_iff_eq

/-- N and V disagree where the difference with unlimited precision is negative (R57, R152). -/
theorem subFlags_n_xor_v (x y : Word) : ((subFlags x y).n ^^ (subFlags x y).v) = decide (x.toInt < y.toInt) := by
  have hsign : x.toInt - y.toInt < 0 ↔ x.toInt < y.toInt := by omega
  rw [subFlags_v, decide_eq_decide.mpr hsign]
  change ((x - y).msb ^^ ((x - y).msb ^^ decide (x.toInt < y.toInt))) = decide (x.toInt < y.toInt)
  rw [← Bool.xor_assoc, Bool.xor_self, Bool.false_xor]

/-- Settles O50: after a comparison C is `<` unsigned, Z is `=` and N xor V is `<` signed, and the conditions combine
these. -/
theorem conditionsAfterCompare : Obligations.ConditionsAfterCompare := by
  intro s t a b x y hx hy h
  obtain rfl := Host.Outcome.next.inj ((execCmp_eq hx hy).symm.trans h)
  have hc : (subFlags x y).c = decide (x.toNat < y.toNat) := rfl
  have hz := subFlags_z x y
  have hnv := subFlags_n_xor_v x y
  have hnat : x = y ↔ x.toNat = y.toNat := BitVec.toNat_inj.symm
  have hint : x = y ↔ x.toInt = y.toInt := BitVec.toInt_inj.symm
  simp only [conditionHolds, advance_status, setFlags_status, hc, hz, hnv, Option.some.injEq, ← Bool.decide_or,
    ← decide_not, decide_eq_decide, not_or]
  exact ⟨trivial, Nat.not_lt, trivial, trivial, Int.not_lt, trivial, by rw [hint]; omega, by rw [hint]; omega,
    by rw [hnat]; omega, by rw [hnat]; omega⟩

end Sys2Proof.Machine
end

section
/-! The statements of 43_load_store.md (R230 to R243) and of 20_memory.md about addresses (R82, R83, R91): every address
as an exact number, the state a load or store completes in, and from these what is loaded and what is stored. -/

namespace Sys2Proof.Machine

variable {s : State} {a b : RegIdx} {base v : Word}

/-! ### Addresses as exact numbers -/

/-- `align32` rounds down to a multiple of 4 (R83). -/
theorem align32_toNat (x : Word) : (align32 x).toNat = x.toNat / 4 * 4 := by
  have hshift : align32 x = x >>> 2 <<< 2 := by
    rw [BitVec.shiftLeft_ushiftRight]
    rfl
  have hx := x.isLt
  rw [hshift, BitVec.toNat_shiftLeft, BitVec.toNat_ushiftRight, Nat.shiftLeft_eq, Nat.shiftRight_eq_div_pow]
  omega

/-- A sum of words is the exact sum modulo 2^32 (decision D5). -/
theorem add_ofInt_toNat (x : Word) (n : Int) : ((x + BitVec.ofInt 32 n).toNat : Int) = (x.toNat + n) % 2 ^ 32 := by
  rw [BitVec.toNat_add, BitVec.toNat_ofInt]
  omega

theorem sK4_eq_ofInt (k : BitVec 11) : sK4 k = BitVec.ofInt 32 (4 * k.toInt) := by
  rw [BitVec.ofInt_mul, BitVec.mul_comm]
  rfl

theorem sKI4_eq_ofInt (k : BitVec 11) (imm : BitVec 5) : sKI4 k imm = BitVec.ofInt 32 (4 * (k ++ imm).toInt) := by
  rw [BitVec.ofInt_mul, BitVec.mul_comm]
  rfl

/-- LD, ST and the partial stores with any base (R232, R238). -/
theorem baseSum_toNat (k : BitVec 11) (base : Word) :
    ((base + sK4 k).toNat : Int) = (base.toNat + 4 * k.toInt) % 2 ^ 32 := by
  rw [sK4_eq_ofInt, add_ofInt_toNat]

/-- LDP and STP after a PFX (R234, R235). -/
theorem prefixedSum_toNat (k : BitVec 11) (imm : BitVec 5) (base : Word) :
    ((base + sKI4 k imm).toNat : Int) = (base.toNat + 4 * (k ++ imm).toInt) % 2 ^ 32 := by
  rw [sKI4_eq_ofInt, add_ofInt_toNat]

/-- A zero-extended offset, scaled by `m` (R234, R236, R243). -/
theorem scaledSum_toNat (base : Word) {w : Nat} (imm : BitVec w) (m : Nat) :
    (base + imm.setWidth 32 * BitVec.ofNat 32 m).toNat = (base.toNat + m * imm.toNat) % 2 ^ 32 := by
  simp [Nat.mul_comm m]

/-- A zero-extended byte offset (R242). -/
theorem byteSum_toNat (base : Word) {w : Nat} (imm : BitVec w) :
    (base + imm.setWidth 32).toNat = (base.toNat + imm.toNat) % 2 ^ 32 := by
  simp

/-- Settles O41: each address is its sum, rounded down to a multiple of 4; the scaled offset is such a multiple, so the
lane of the base is the lane of the sum. -/
theorem dataAddresses : Obligations.DataAddresses := by
  intro base
  refine ⟨fun k => ?base, fun k imm => ⟨?prefixed, ?pointer⟩, fun imm => ?stack, fun imm => ?stackByte,
    fun imm => ?stackHalf, fun _ => rfl, fun _ => rfl⟩
  case base =>
    have hsum := baseSum_toNat k base
    rw [byteLaneAddr, halfLaneAddr, byteLane_toNat, halfLane_toNat, baseAddr, align32_toNat]
    omega
  case prefixed =>
    have hsum := prefixedSum_toNat k imm base
    rw [pointerAddr, pointerOffset, if_pos rfl, align32_toNat]
    omega
  case pointer =>
    rw [pointerAddr, pointerOffset, if_neg Bool.false_ne_true, align32_toNat, scaledSum_toNat]
  case stack => rw [stackAddr, align32_toNat, scaledSum_toNat]
  case stackByte => rw [stackByteAddr, align32_toNat, byteSum_toNat]
  case stackHalf => rw [stackHalfAddr, align32_toNat, scaledSum_toNat]

/-! ### Loads -/

/-- The shape of the three loads: the word at an address formed from a register goes to RA, and nothing else changes. -/
theorem load_reads {addr : Word → Word} (ha : s.phys a < s.regs.length) (hbase : s.reg? b = some base)
    (hb : bytesBacked s.cfg (addr base).toNat 4 = true) :
    ∃ t v, (readReg s b fun x => loadTo s a (addr x)) = .next t ∧ WordAt s.mem (addr base).toNat v ∧
      WritesRegister s t a v := by
  rw [readReg_eq hbase, loadTo, loadWord_eq hb, writeReg_eq ha, finish]
  exact ⟨_, _, rfl, WordAt.of_readWord _ _, .of_advance ha _⟩

/-- Settles O42: one shape, with the three ways to form the address. -/
theorem loadsReadAlignedWord : Obligations.LoadsReadAlignedWord := by
  intro s a ha
  refine ⟨fun b base => load_reads (addr := baseAddr s.k) ha, fun p imm base => ?ldp,
    fun imm base => load_reads (addr := stackAddr imm) ha⟩
  case ldp =>
    rw [← pointerReg_eq]
    exact load_reads (addr := pointerAddr s.pfxf s.k imm) ha

/-! ### Stores -/

/-- A store leaves the registers, the control registers and every byte outside its own. -/
theorem storedState_storesOnly (hm : Memory.wf s.mem = true) (addr : Nat) (vs : List Byte) :
    StoresOnly s (storedState s addr vs) addr vs.length :=
  ⟨read_writeBytes_outside s.mem addr vs hm, rfl, rfl, rfl, rfl, rfl, rfl, rfl, rfl⟩

/-- The shape of the nine stores: an address formed from a register, and bytes taken from a register. -/
theorem store_stores {addr : Word → Nat} {bytes : Word → Word → List Byte} (hm : Memory.wf s.mem = true)
    (hbase : s.reg? b = some base) (hv : s.reg? a = some v)
    (hb : bytesBacked s.cfg (addr base) (bytes base v).length = true) :
    ∃ t, (readReg s b fun x => readReg s a fun y => storeAndFinish s (addr x) (bytes x y)) = .next t ∧
      t.mem = s.mem.writeBytes (addr base) (bytes base v) ∧ StoresOnly s t (addr base) (bytes base v).length := by
  rw [readReg_eq hbase, readReg_eq hv, storeAndFinish_eq hb]
  exact ⟨_, rfl, rfl, storedState_storesOnly hm ..⟩

/-- The word stores: RA at an aligned address. -/
theorem storeWord_stores {addr : Word → Word} (hm : Memory.wf s.mem = true) (hv : s.reg? a = some v)
    (hbase : s.reg? b = some base) (hb : bytesBacked s.cfg (addr base).toNat 4 = true) :
    ∃ t, (readReg s b fun x => storeWordFrom s a (addr x)) = .next t ∧ WordAt t.mem (addr base).toNat v ∧
      StoresOnly s t (addr base).toNat 4 := by
  obtain ⟨t, ht, hmem, honly⟩ :=
    store_stores (addr := fun x => (addr x).toNat) (bytes := fun _ y => wordBytes y) hm hbase hv hb
  exact ⟨t, ht, hmem ▸ .of_writeBytes s.mem hm _ v, honly⟩

/-- The byte stores: byte n of %r0 in lane n of the word at an aligned address. -/
theorem storeByte_stores {addr : Word → Word} {lane : Word → BitVec 2} (hm : Memory.wf s.mem = true)
    (hv : s.reg? regR0 = some v) (hbase : s.reg? b = some base) {target : Nat}
    (htarget : target = byteLaneAddr (addr base) (lane base)) (hb : bytesBacked s.cfg target 1 = true) :
    ∃ t, (readReg s b fun x => storeByteLane s (addr x) (lane x)) = .next t ∧
      Memory.read t.mem target = v.extractLsb' (8 * (lane base).toNat) 8 ∧ StoresOnly s t target 1 := by
  subst htarget
  obtain ⟨t, ht, hmem, honly⟩ := store_stores (addr := fun x => byteLaneAddr (addr x) (lane x))
    (bytes := fun x y => [byteOf y (lane x)]) hm hbase hv hb
  refine ⟨t, ht, ?_, honly⟩
  rw [hmem, writeBytes_singleton, read_write _ _ _ hm, if_pos rfl, byteOf]

/-- The half-word stores: half-word n of %r0 in half-word n of the word at an aligned address. -/
theorem storeHalf_stores {addr : Word → Word} {lane : Word → BitVec 1} (hm : Memory.wf s.mem = true)
    (hv : s.reg? regR0 = some v) (hbase : s.reg? b = some base) {target : Nat}
    (htarget : target = halfLaneAddr (addr base) (lane base)) (hb : bytesBacked s.cfg target 2 = true) :
    ∃ t, (readReg s b fun x => storeHalfLane s (addr x) (lane x)) = .next t ∧
      HalfAt t.mem target (v.extractLsb' (16 * (lane base).toNat) 16) ∧ StoresOnly s t target 2 := by
  subst htarget
  obtain ⟨t, ht, hmem, honly⟩ := store_stores (addr := fun x => halfLaneAddr (addr x) (lane x))
    (bytes := fun x y => halfBytes (halfOf y (lane x))) hm hbase hv hb
  exact ⟨t, ht, hmem ▸ .of_writeBytes s.mem hm _ _, honly⟩

/-- Settles O43: one shape, with the three ways to form the address. -/
theorem wordStoresWriteAlignedWord : Obligations.WordStoresWriteAlignedWord := by
  intro s a v hm hv
  refine ⟨fun b base => storeWord_stores (addr := baseAddr s.k) hm hv, fun p imm base => ?stp,
    fun imm base => storeWord_stores (addr := stackAddr imm) hm hv⟩
  case stp =>
    rw [← pointerReg_eq]
    exact storeWord_stores (addr := pointerAddr s.pfxf s.k imm) hm hv

/-- Settles O44: one shape, with the lane from the address register or from the immediate. -/
theorem byteStoresWriteOneLane : Obligations.ByteStoresWriteOneLane := by
  intro s v hm hv
  refine ⟨fun a base addr hbase haddr hb => ?st8d, fun a imm base addr hbase haddr hb => ?st8s,
    fun imm base addr hbase haddr hb => ?sts8s⟩
  case st8d =>
    rw [← byteLane_toNat]
    exact storeByte_stores (addr := baseAddr s.k) (lane := byteLane) hm hv hbase haddr hb
  case st8s => exact storeByte_stores (addr := baseAddr s.k) (lane := fun _ => imm) hm hv hbase haddr hb
  case sts8s =>
    have hlane : (imm.extractLsb' 0 2).toNat = imm.toNat % 4 := BitVec.extractLsb'_toNat ..
    rw [← hlane]
    exact storeByte_stores (addr := stackByteAddr imm) (lane := fun _ => imm.extractLsb' 0 2) hm hv hbase haddr hb

/-- Settles O45: the same of half-words. -/
theorem halfStoresWriteOneLane : Obligations.HalfStoresWriteOneLane := by
  intro s v hm hv
  refine ⟨fun a base addr hbase haddr hb => ?st16d, fun a imm base addr hbase haddr hb => ?st16s,
    fun imm base addr hbase haddr hb => ?sts16s⟩
  case st16d =>
    rw [← halfLane_toNat]
    exact storeHalf_stores (addr := baseAddr s.k) (lane := halfLane) hm hv hbase haddr hb
  case st16s => exact storeHalf_stores (addr := baseAddr s.k) (lane := fun _ => imm) hm hv hbase haddr hb
  case sts16s =>
    have hlane : (imm.extractLsb' 0 1).toNat = imm.toNat % 2 := BitVec.extractLsb'_toNat ..
    rw [← hlane]
    exact storeHalf_stores (addr := stackHalfAddr imm) (lane := fun _ => imm.extractLsb' 0 1) hm hv hbase haddr hb

end Sys2Proof.Machine
end

section
/-! The statements of 10_state.md about register windows (R36 to R38) and of 60_exceptions.md about the window of a
handler (R340). -/

namespace Sys2Proof.Machine

variable {s : State} {a : RegIdx} {n : BitVec 6}

/-! ### Physical indices (R36) -/

theorem physIndex_global {cwp : BitVec 5} {i : RegIdx} (hi : i.toNat < 8) : physIndex cwp i = i.toNat :=
  if_pos hi

theorem physIndex_windowed {cwp : BitVec 5} {i : RegIdx} (hi : 8 ≤ i.toNat) :
    physIndex cwp i = 16 * cwp.toNat + i.toNat :=
  if_neg (Nat.not_lt.mpr hi)

theorem physIndex_le (cwp : BitVec 5) (i : RegIdx) : physIndex cwp i ≤ 16 * cwp.toNat + i.toNat := by
  unfold physIndex
  split <;> omega

/-- A register of window `c` is windowed, or a global below all of them. -/
theorem physIndex_cases (c : BitVec 5) (i : RegIdx) :
    (i.toNat < 8 ∧ physIndex c i = i.toNat) ∨ (8 ≤ i.toNat ∧ physIndex c i = 16 * c.toNat + i.toNat) := by
  rcases Nat.lt_or_ge i.toNat 8 with hi | hi
  · exact .inl ⟨hi, physIndex_global hi⟩
  · exact .inr ⟨hi, physIndex_windowed hi⟩

theorem setCwp_reg? (s : State) (c : BitVec 5) (i : RegIdx) : (s.setCwp c).reg? i = s.regs[physIndex c i]? := rfl

/-- Settles O22: the four consequences by the sums that are the physical indices. -/
theorem windowsOverlap : Obligations.WindowsOverlap := by
  refine ⟨fun s c i hc hlo hhi => ?outIsIn, fun s c d i hi => ?globals, fun c d i j hlo hhi heq hj => ?locals,
    fun c i j hc heq => ?distinct⟩
  case outIsIn =>
    have hc' : (c - 1#5).toNat = c.toNat - 1 := by bv_omega
    have hi' : (i + 16#5).toNat = i.toNat + 16 := by bv_omega
    rw [setCwp_reg?, setCwp_reg?, physIndex_windowed hlo, physIndex_windowed (by omega), hc', hi']
    congr 1
    omega
  case globals => rw [setCwp_reg?, setCwp_reg?, physIndex_global hi, physIndex_global hi]
  case locals =>
    have hi := i.isLt
    have hj' := j.isLt
    rw [physIndex_windowed (by omega), physIndex_windowed hj] at heq
    exact ⟨BitVec.eq_of_toNat_eq (by omega), BitVec.eq_of_toNat_eq (by omega)⟩
  case distinct =>
    have hi := physIndex_cases c i
    have hj := physIndex_cases c j
    exact BitVec.eq_of_toNat_eq (by omega)

/-! ### Windows inside the file (R38) -/

/-- NREG is a multiple of 16, with two windows at least. -/
theorem nreg_bounds (f : FileSize) : f.nreg = 16 * (f.nreg / 16) ∧ 8 ≤ f.nreg / 16 ∧ f.nreg / 16 ≤ 32 := by
  cases f <;> decide

/-- %i7, the highest register of a window, decides whether the window lies inside the file. -/
theorem inFile_regI7_iff (hlen : s.regs.length = s.cfg.fileSize.nreg) (cwp : BitVec 5) :
    InFile s cwp regI7 ↔ cwp.toNat ≤ s.cfg.fileSize.nreg / 16 - 2 := by
  have hnreg := nreg_bounds s.cfg.fileSize
  have hphys : physIndex cwp regI7 = 16 * cwp.toNat + 31 := rfl
  rw [InFile, hphys, hlen]
  omega

theorem InFile.of_regI7 {cwp : BitVec 5} (h : InFile s cwp regI7) (i : RegIdx) : InFile s cwp i := by
  have hi := i.isLt
  have hphys : physIndex cwp regI7 = 16 * cwp.toNat + 31 := rfl
  have hle := physIndex_le cwp i
  unfold InFile at *
  omega

theorem readReg_refused (h : s.regs.length ≤ s.phys a) (rest : Word → Out) :
    readReg s a rest = .refused (.outsideRegisterFile (s.phys a)) := by
  rw [readReg, State.reg?, List.getElem?_eq_none h]

theorem writeReg_refused (h : s.regs.length ≤ s.phys a) (v : Word) (rest : State → Out) :
    writeReg s a v rest = .refused (.outsideRegisterFile (s.phys a)) :=
  if_neg (Nat.not_lt.mpr h)

/-- Settles O21: %i7 decides for the window, a global needs eight registers, and both accessors refuse what lies
outside. -/
theorem windowInsideFileUpToHiMax : Obligations.WindowInsideFileUpToHiMax := by
  intro s hlen
  have hnreg := nreg_bounds s.cfg.fileSize
  refine ⟨?window, fun i hi => ?globals, fun i hout hi => ?refused⟩
  case window =>
    rw [← inFile_regI7_iff hlen]
    exact ⟨fun h => h regI7, InFile.of_regI7⟩
  case globals =>
    rw [InFile, physIndex_global hi, hlen]
    omega
  case refused =>
    have hphys : s.phys i = 16 * s.status.cwp.toNat + i.toNat := physIndex_windowed hi
    rw [← hphys] at hout ⊢
    have hoff : s.regs.length ≤ s.phys i := hlen ▸ hout
    exact ⟨fun a => readReg_refused hoff _, fun imm => writeReg_refused hoff _ finish⟩

/-! ### The window of a handler (R340) -/

/-- The whole window below decides, but for the entry at CWP = 0, whose %o7 is register 511. -/
theorem handlerWindow_iff {cwp : BitVec 5} (hcwp : cwp ≠ 0#5) : HandlerWindow s cwp ↔ InFile s (cwp - 1#5) regI7 :=
  ⟨fun h => h.2 hcwp, fun h => ⟨h.of_regI7 regO7, fun _ => h⟩⟩

/-- %o7 of window 31 is register 511, which only the largest file has. -/
theorem handlerWindow_zero_iff : HandlerWindow s 0#5 ↔ 511 < s.regs.length :=
  ⟨fun h => h.1, fun h => ⟨h, absurd rfl⟩⟩

theorem nreg_gt_511_iff (f : FileSize) : 511 < f.nreg ↔ f = .regs512 := by
  cases f <;> decide

theorem enterException_at_zero (hcwp : s.status.cwp = 0#5) (h : s.regs.length ≤ 511) (ret : Addr) :
    enterException s n ret false = .refused (.outsideRegisterFile 511) := by
  have hwindow : s.hasHandlerWindow false = true := hasHandlerWindow_iff.mpr (.inr (.inl hcwp))
  have hphys : (s.exceptionStatus n false).phys regO7 = 511 := by
    change physIndex (s.status.cwp - 1#5) regO7 = 511
    rw [hcwp]
    rfl
  rw [enterException, if_pos hwindow, writeReg_refused (by rw [hphys]; exact h), hphys]

theorem enterException_outside (hcwp : s.status.cwp ≠ 0#5) (h : ¬ InFile s (s.status.cwp - 1#5) regI7) (ret : Addr) :
    enterException s n ret false = .refused (.handlerWindowOutsideFile (s.status.cwp - 1#5)) := by
  refine enterException_noWindow (Bool.eq_false_iff.mpr fun hwindow => ?_)
  obtain hu | hzero | hin := hasHandlerWindow_iff.mp hwindow
  · cases hu
  · exact hcwp hzero
  · exact h hin

theorem execTrap_eq_enterException (hds : s.ds = none) :
    exec (.trap n) s = enterException s n (s.pc + 2#33) false :=
  outsideDelaySlot_eq hds _

/-- Settles O59: the two tests of an exception entry, for the window of its handler and for %o7, by the size of the
file. -/
theorem exceptionEntryNeedsWindow : Obligations.ExceptionEntryNeedsWindow := by
  intro s n hlen
  have hnreg := nreg_bounds s.cfg.fileSize
  refine ⟨fun hlo hhi => ?inside, fun hzero => ?atZero, fun hzero hsize => ?refusedAtZero, fun hlo hhi => ?outside,
    fun hne hhi hlimit hie hipri => ?overflow⟩
  case inside =>
    have hcwp : s.status.cwp ≠ 0#5 := by bv_omega
    rw [handlerWindow_iff hcwp, inFile_regI7_iff hlen]
    bv_omega
  case atZero => rw [hzero, handlerWindow_zero_iff, hlen, nreg_gt_511_iff]
  case refusedAtZero =>
    have hsmall : s.regs.length ≤ 511 := by
      rwa [← Nat.not_lt, hlen, nreg_gt_511_iff]
    refine ⟨fun hds => ?_, fun hacc => ?_⟩
    · rw [execTrap_eq_enterException hds, enterException_at_zero hzero hsmall]
    · rw [step_of_acceptsIrq hacc, enterException_at_zero (s := s.tick) hzero hsmall]
  case outside =>
    have hcwp : s.status.cwp ≠ 0#5 := by bv_omega
    have hout : ¬ InFile s (s.status.cwp - 1#5) regI7 := by
      rw [inFile_regI7_iff hlen]
      bv_omega
    refine ⟨fun hds => ?_, fun hacc => ?_⟩
    · rw [execTrap_eq_enterException hds, enterException_outside hcwp hout]
    · rw [step_of_acceptsIrq hacc, enterException_outside (s := s.tick) hcwp hout, tick_status]
  case overflow =>
    have hcwp : s.status.cwp + 1#5 ≠ 0#5 := by bv_omega
    have hback : s.status.cwp + 1#5 - 1#5 = s.status.cwp := BitVec.add_sub_cancel ..
    have hout : ¬ InFile (s.setCwp (s.status.cwp + 1#5)) (s.status.cwp + 1#5 - 1#5) regI7 := by
      rw [hback]
      exact fun hin => Nat.not_le.mpr hhi ((inFile_regI7_iff hlen _).mp hin)
    have htaken := (overflow_iff s).mpr ⟨hlimit, hie, hipri⟩
    rw [exec, execRestore, if_pos htaken, enterException_outside (s := s.setCwp _) hcwp hout, setCwp_status, hback]

end Sys2Proof.Machine
end

section
/-! The statements of 45_system.md about SAVE, RESTORE and WRCTL (R291 to R293, R298, R299), of 60_exceptions.md about
an exception and its return (R337, R342, R348), and of 30_encoding.md about a PFX that is not used (R132). -/

namespace Sys2Proof.Machine

variable {s : State} {a : RegIdx} {x v : Word} {n : BitVec 6}

/-! ### SAVE and RESTORE -/

/-- The new %sp: %fp minus 4 * IMM8 modulo 2^32 (R291). -/
theorem newSp_toNat (fp : Word) (imm : BitVec 8) :
    ((fp - imm.setWidth 32 * 4#32).toNat : Int) = ((fp.toNat : Int) - 4 * imm.toNat) % 2 ^ 32 := by
  have himm := imm.isLt
  rw [sub_toNat_eq_emod, BitVec.toNat_mul, BitVec.toNat_setWidth, BitVec.toNat_ofNat]
  omega

/-- Below %fp the registers of a window lie inside the file. -/
theorem phys_lt_of_regFp {fp : Word} (hfp : s.reg? regFp = some fp) {i : RegIdx} (hi : 8 ≤ i.toNat)
    (hle : i.toNat ≤ 30) : s.phys i < s.regs.length := by
  have hphys : s.phys regFp = 16 * s.status.cwp.toNat + 30 := rfl
  have hlt := reg?_isSome hfp
  rw [State.phys, physIndex_windowed hi]
  omega

theorem SameRegistersBut.trans {t u : State} {l l' : List Nat} (hst : SameRegistersBut s t l)
    (htu : SameRegistersBut t u l') : SameRegistersBut s u (l ++ l') := by
  obtain ⟨hlen, hkept⟩ := hst
  obtain ⟨hlen', hkept'⟩ := htu
  refine ⟨hlen'.trans hlen, fun p hp => ?_⟩
  rw [List.mem_append, not_or] at hp
  exact (hkept' p hp.2).trans (hkept p hp.1)

/-- The window a SAVE opens, with its %sp written. -/
def openedState (s : State) (sp : Word) : State := (s.setCwp (s.status.cwp - 1#5)).putReg regSp sp

theorem execSave_eq {fp : Word} (hfp : (s.setCwp (s.status.cwp - 1#5)).reg? regFp = some fp) (imm : BitVec 8) :
    execSave imm s =
      if s.status.cwp = s.wvalid.lo ∧ s.status.ie = true ∧ 1 < s.status.ipri.toNat then
        enterException (openedState s (fp - imm.setWidth 32 * 4#32)) underflowNumber s.next true
      else .next (openedState s (fp - imm.setWidth 32 * 4#32)).advance := by
  simp only [← underflow_iff]
  exact (readReg_eq hfp _).trans (writeReg_eq (phys_lt_of_regFp hfp (by decide) (by decide)) _ _)

/-- The underflow exception has the window its SAVE opened (60_exceptions.md R340). -/
theorem enterException_underflow (hO7 : InFile s s.status.cwp regO7) (hv : VectorBacked s n) (ret : Addr) :
    enterException s n ret true = .next (enteredState s n ret true) := by
  have hbacked : bytesBacked s.cfg (vectorAddr s.cfg n) 4 = true := hv.vectorAddr_eq ▸ hv.2
  exact enterException_eq (hasHandlerWindow_iff.mpr (.inl rfl)) hO7 hbacked

theorem execRestore_eq (s : State) :
    execRestore s =
      if s.status.cwp = s.wvalid.hi ∧ s.status.ie = true ∧ 2 < s.status.ipri.toNat then
        enterException (s.setCwp (s.status.cwp + 1#5)) overflowNumber s.next false
      else .next (s.setCwp (s.status.cwp + 1#5)).advance := by
  simp only [← overflow_iff]
  rfl

/-- Settles O51: the opened window is the state of both endings, and the exception adds its own writes. -/
theorem saveOpensWindow : Obligations.SaveOpensWindow := by
  intro s imm fp hfp
  have hexec : exec (.save imm) s = _ := execSave_eq hfp imm
  have hvalue := newSp_toNat fp imm
  generalize fp - imm.setWidth 32 * 4#32 = sp at hexec hvalue
  have hsp : (openedState s sp).reg? regSp = some sp :=
    putReg_reg?_self (phys_lt_of_regFp hfp (by decide) (by decide))
  have honly : SameRegistersBut s (openedState s sp) [physIndex (s.status.cwp - 1#5) regSp] :=
    .of_putReg (s.setCwp (s.status.cwp - 1#5)) _ regSp sp rfl
  refine ⟨fun hnot => ?completes, fun hlo hie hipri hv => ?underflow⟩
  case completes =>
    rw [hexec, if_neg hnot]
    exact ⟨_, sp, rfl, hvalue, rfl, hsp, honly, rfl, rfl, rfl, fun _ => rfl⟩
  case underflow =>
    have hO7 : InFile (openedState s sp) (s.status.cwp - 1#5) regO7 := by
      rw [InFile, honly.1]
      exact phys_lt_of_regFp hfp (by decide) (by decide)
    have hentered : ExceptionEntered s (enteredState (openedState s sp) 1#6 s.next true)
        { s.status with cwp := s.status.cwp - 1#5 } (s.status.cwp - 1#5) 1#6 s.next :=
      enteredState_exceptionEntered (s := openedState s sp) (underflow := true) hO7 hv s.next
    have hkept : SameRegistersBut (openedState s sp) (enteredState (openedState s sp) 1#6 s.next true)
        [physIndex (s.status.cwp - 1#5) regO7] := enteredState_sameRegistersBut (openedState s sp) 1#6 s.next true
    have hne : physIndex (s.status.cwp - 1#5) regSp ∉ [physIndex (s.status.cwp - 1#5) regO7] := by
      simp [physIndex, regSp, regO7]
    rw [hexec, if_pos ⟨hlo, hie, hipri⟩, ← next_eq]
    exact ⟨_, sp, enterException_underflow (s := openedState s sp) hO7 hv s.next, hvalue, hentered,
      (hkept.2 _ hne).trans hsp, honly.trans hkept⟩

/-- Settles O52: the exception enters the window below the one RESTORE has come to, which is the old one. -/
theorem restoreClosesWindow : Obligations.RestoreClosesWindow := by
  intro s
  have hexec : exec .restore s = _ := execRestore_eq s
  refine ⟨fun hnot => ?completes, fun hhi hie hipri hw hv => ?overflow⟩
  case completes =>
    rw [hexec, if_neg hnot]
    exact ⟨_, rfl, rfl, rfl, rfl, rfl, rfl, fun _ => rfl⟩
  case overflow =>
    have hback : s.status.cwp + 1#5 - 1#5 = s.status.cwp := BitVec.add_sub_cancel ..
    have hentered : ExceptionEntered s (enteredState (s.setCwp (s.status.cwp + 1#5)) 2#6 s.next false)
        { s.status with cwp := s.status.cwp + 1#5 } (s.status.cwp + 1#5 - 1#5) 2#6 s.next :=
      enteredState_exceptionEntered (s := s.setCwp _) (underflow := false) hw.1 hv s.next
    have honly : SameRegistersBut s (enteredState (s.setCwp (s.status.cwp + 1#5)) 2#6 s.next false)
        [physIndex (s.status.cwp + 1#5 - 1#5) regO7] := enteredState_sameRegistersBut (s.setCwp _) 2#6 s.next false
    rw [hback] at hentered honly
    rw [hexec, if_pos ⟨hhi, hie, hipri⟩, ← next_eq]
    exact ⟨_, enterException_eq_enteredState (s := s.setCwp _) hw hv s.next, hentered, honly⟩

/-! ### An exception and its return -/

/-- TRET %o7 at once after an exception entry gives back STATUS and the return location. -/
theorem tret_after_enteredState (hO7 : InFile s (s.status.cwp - 1#5) regO7) (n : BitVec 6) {ret : Addr}
    (hret : ret.toNat % 2 = 0) :
    ∃ u, exec (.tret regO7) (enteredState s n ret false) = .next u ∧
      u.status = s.status ∧ u.pc = ret ∧ u.k = 0#11 ∧ u.pfxf = false ∧ u.ds = none ∧
      SameRegistersBut s u [physIndex (s.status.cwp - 1#5) regO7] ∧ u.wvalid = s.wvalid ∧ SameMemory s u := by
  have hlink : (enteredState s n ret false).reg? regO7 = some (codeWord ret) :=
    putReg_reg?_self (s := s.exceptionStatus n false) hO7
  exact ⟨_, execTret_eq rfl hlink, rfl, codeAddr_codeWord hret, rfl, rfl, rfl,
    enteredState_sameRegistersBut s n ret false, rfl, fun _ => rfl⟩

/-- Settles O55: both entries leave the state TRET starts from, with the old STATUS in ISTATUS and the even return
location in %o7. -/
theorem exceptionThenReturnRestores : Obligations.ExceptionThenReturnRestores := by
  intro s n hpc hds hw hv
  refine ⟨?trap, fun hacc hn => ?interrupt⟩
  case trap =>
    have hret : EvenAddr (s.pc + 2#33) := .add hpc rfl
    obtain ⟨u, hu⟩ := tret_after_enteredState hw.1 n hret
    exact ⟨_, u, execTrap_eq hds hw hv, hu⟩
  case interrupt =>
    obtain ⟨u, hu⟩ := tret_after_enteredState (s := s.tick) hw.1 n hpc
    exact ⟨_, u, step_eq_enteredState hacc hn hw hv, hu⟩

/-! ### WRCTL -/

theorem execWrctl_eq (hv : s.reg? a = some v) {k : BitVec 11} (hk : s.k = k) {c : ControlReg}
    (hc : controlReg k = some c) : exec (.wrctl a) s = writeControl s v c := by
  rw [exec, execWrctl, readReg_eq hv, hk, hc]

theorem execWrctl_refused (hv : s.reg? a = some v) (hc : controlReg s.k = none) :
    exec (.wrctl a) s = .refused (.undefinedControlRegister s.k.toNat) := by
  rw [exec, execWrctl, readReg_eq hv, hc]

/-- Settles O57: K selects the control register, and its bits in RA become its fields. -/
theorem writeControlRegister : Obligations.WriteControlRegister := by
  intro s a v hv
  refine ⟨fun hk hb => ⟨fun hnop => ?status, fun hnop => ?withoutNop⟩, fun hk => ?istatus, fun hk => ?wvalid,
    fun on hk => ?enable, fun hk => execWrctl_refused hv (controlReg_eq_none hk)⟩
  case status =>
    have hword := (halfAt_iff_readHalf ..).mp hnop
    rw [execWrctl_eq hv hk rfl, writeControl, beforeNop, loadHalf_eq hb, hword]
    exact ⟨_, rfl, (statusBits_iff ..).mpr rfl, rfl, rfl, rfl, rfl, fun _ => rfl⟩
  case withoutNop =>
    have hword : Memory.readHalf s.mem s.next.toNat ≠ nopWord := mt (halfAt_iff_readHalf ..).mpr hnop
    rw [execWrctl_eq hv hk rfl, writeControl, beforeNop, loadHalf_eq hb, if_neg (mt beq_iff_eq.mp hword)]
  case istatus =>
    rw [execWrctl_eq hv hk rfl]
    exact ⟨_, rfl, (statusBits_iff ..).mpr rfl, rfl, rfl, rfl, rfl, fun _ => rfl⟩
  case wvalid =>
    rw [execWrctl_eq hv hk rfl, writeControl]
    split
    next hwritable =>
      exact ⟨_, rfl, fun _ => (wvalidBits_iff ..).mpr rfl, by simp [hwritable], rfl, rfl, rfl, rfl, fun _ => rfl⟩
    next hreadOnly => exact ⟨_, rfl, fun h => absurd h hreadOnly, fun _ => rfl, rfl, rfl, rfl, rfl, fun _ => rfl⟩
  case enable =>
    cases on
    all_goals
      rw [execWrctl_eq hv hk rfl]
      exact ⟨_, rfl, rfl, rfl, rfl, rfl, rfl, fun _ => rfl⟩

/-! ### A PFX that is not used (R132, R225) -/

/-- These meanings read neither K nor PFXF, and every way for them to end clears both: the two sides are one term. -/
theorem exec_eq_of_usesPrefix_eq_false {i : Instr} (hi : i.usesPrefix = false) (s : State) (k : BitVec 11) (p : Bool) :
    exec i { s with k := k, pfxf := p } = exec i s := by
  cases i with
  | addi | subi | cmpi | movi | movhi | and | andn | or | xor | ld | st | st8d | st8s | st16d | st16s | ldp | stp
  | rdctl | wrctl | pfx => cases hi
  | _ => rfl

/-- With K = 0 the two forms of a pointer's offset are one (R234, R235). -/
theorem pointerOffset_zero (p : Bool) (imm : BitVec 5) : pointerOffset p 0#11 imm = imm.setWidth 32 * 4#32 := by
  revert p imm
  decide

theorem pointerAddr_zero (p q : Bool) (imm : BitVec 5) (base : Word) :
    pointerAddr p 0#11 imm base = pointerAddr q 0#11 imm base := by
  rw [pointerAddr, pointerAddr, pointerOffset_zero, pointerOffset_zero]

/-- Only LDP, STP and the logic instructions ask for PFXF, and with K = 0 the first two do the same on both answers. -/
theorem exec_eq_of_k_eq_zero {i : Instr} (hi : i.readsPrefixFlag = false) (hne : ∀ imm, i ≠ .pfx imm) (s : State)
    (hk : s.k = 0#11) (p : Bool) : exec i { s with pfxf := p } = exec i s := by
  cases i with
  | and | andn | or | xor => cases hi
  | pfx imm => exact absurd rfl (hne imm)
  | ldp q imm a =>
    change readReg s (pointerReg q) (fun base => loadTo s a (pointerAddr p s.k imm base)) = execLdp q imm a s
    simp only [execLdp, hk, pointerAddr_zero p s.pfxf]
  | stp q imm a =>
    change readReg s (pointerReg q) (fun base => storeWordFrom s a (pointerAddr p s.k imm base)) = execStp q imm a s
    simp only [execStp, hk, pointerAddr_zero p s.pfxf]
  | wrctl a =>
    simp only [exec, execWrctl, hk]
    rfl
  | _ => rfl

/-- Settles O40: the two clauses, instruction by instruction. -/
theorem unusedPrefixHasNoEffect : Obligations.UnusedPrefixHasNoEffect :=
  fun _ s k p => ⟨fun hi => exec_eq_of_usesPrefix_eq_false hi s k p,
    fun hi hne hk => exec_eq_of_k_eq_zero hi hne s hk p⟩

end Sys2Proof.Machine
end
